-- ==== Sys2Proof/Word.lean ====
section
/-! DEFINITION. The bit vectors of the block: bytes of the streams, binary32 words as received, binary64 caller values. -/

namespace Sys2Proof

/-- A byte, 0..255 (R10). -/
abbrev Byte := BitVec 8

/-- A word, 32 bits: the encoding of one binary32 value (R10, R13). -/
abbrev Word := BitVec 32

/-- The encoding of one binary64 value: what `ROUND6` delivers (R201). -/
abbrev Bits64 := BitVec 64

end Sys2Proof
end

