-- ==== Sys2Proof/Config.lean ====
section
/-! DEFINITION. The implementation parameters of R8, the answers the environment can draw, and the free values (opaque
constants with no body: nothing can be proved of them, so a claim holds for every value). -/

namespace Sys2Proof

/-- The environment's answer to one `TxWrite` (R62): `fails` draws outcome (b), and then a drawn part of the bytes, the first
`kept` of them, reaches the line. On a closed channel the write fails whatever `fails` says (R64). -/
structure TxDraw where
  fails : Bool
  kept : Nat
  deriving DecidableEq, Repr, Inhabited

/-- The environment's answer to one `RxRead(n)` (R63): `bytes k` returns the first `min k n` pending bytes (fewer if fewer are
pending), `closed` closes the channel and returns nothing. -/
inductive RxDraw where
  | bytes (k : Nat)
  | closed
  deriving DecidableEq, Repr, Inhabited

/-- The start marker of every frame (R8, R90). -/
def Config.startByte : Byte := 0xBB#8

/-- The longest payload a frame can carry (R8, R91). -/
def Config.maxPayload : Nat := 255

/-- The bytes of a frame that are not payload: start, command id, length, checksum (R8). -/
def Config.frameOverhead : Nat := 4

/-- The index byte `EXEC` sends (R8, D7). -/
def Config.iwIndex : Byte := 0x00#8

/-- The value `EXEC` sends where the remote side ignores it: +0.0 (R8, R95, D8). -/
def Config.dummyValue : Word := 0x00000000#32

/-- The greatest count of `DECODE_FLOATS` (R8, D23). -/
def Config.maxDecodeCount : Nat := 255

/-- The OPEN parameter `T_TIMEOUT` (R8, D18): no source gives its value or unit. The host-program line `OPEN 0, T` stands for it. -/
opaque Config.tTimeout : Nat

/-- Free value: what the environment answers to a `TxWrite` for which State lists no draw (R15; log 7). -/
opaque Config.freeTx : Nat → TxDraw

/-- Free value: what the environment answers to an `RxRead` for which State lists no draw (R15; log 7). -/
opaque Config.freeRx : Nat → RxDraw

/-- Free value: whether the environment opens the channel where State lists no draw (R167, U15; log 7). -/
opaque Config.freeOpen : Nat → Bool

/-- Free value: the sign of a NaN that `ROUND6` delivers (U6; log 9). -/
opaque Config.freeNanSign : Nat → Bool

/-- Free value: the fraction of a NaN that `ROUND6` delivers (U6; log 9). A NaN's fraction is not zero, so a zero stands for 1. -/
opaque Config.freeNanFraction : Nat → BitVec 52

end Sys2Proof
end

