-- ==== Sys2Proof/Syntax.lean ====
section
/-! DEFINITION. The operations of the host port as the machine sees them: `Instr` has one constructor per row of the opcode table
(the 14 commands of `CMD_TABLE` and the seven host operations of R104), and `HostRequest` is the port's own form of an operation. -/

namespace Sys2Proof

/-- One operation. Operands are unbounded integers (R10), because R105 gives every operation a result for operands outside their
range, above it or below 0 (`MALFORMED_ARG`, `MALFORMED`). The timeout has no range (log 17, log 30). A command constructor is `EXEC` of
that command with the caller's arguments `args` (R108, R169). -/
inductive Instr where
  | readQuat (args : List Int)
  | readRpy (args : List Int)
  | readRpyVar (args : List Int)
  | readAcc (args : List Int)
  | readAccVar (args : List Int)
  | readGyro (args : List Int)
  | readGyroVar (args : List Int)
  | readMag (args : List Int)
  | getFilterGain (args : List Int)
  | setWorldFrameId (args : List Int)
  | getWorldFrameId (args : List Int)
  | readQuatRpy (args : List Int)
  | readAccGyro (args : List Int)
  | clearDataBuffer (args : List Int)
  | encode (cmd : Int) (payload : List Int)
  | encodeNp (cmd : Int)
  | decodeFloats (raw : List Int) (count : Int)
  | decodeFrame (frame : List Int)
  | exec (cmd : Int) (args : List Int)
  | openChan (respFramed : Int) (timeout : Nat)
  | closeChan
  deriving DecidableEq, Repr

/-- The request payload shapes: no payload (R94), indexed write (R93). -/
inductive Shape where
  | np
  | iw
  deriving DecidableEq, Repr

/-- The legal values of `EXP_N` and of a command's float count (R26, R100). Values 2, 5, 7 and above 8 are excluded by type (U10). -/
inductive FloatCount where
  | zero
  | one
  | three
  | four
  | six
  | eight
  deriving DecidableEq, Repr

/-- The post-processing classes (R203). -/
inductive PostClass where
  | real
  | real7
  | int
  deriving DecidableEq, Repr

/-- One entry of `CMD_TABLE` (R100): command id, request shape, argument count, float count, post-processing class. -/
structure CmdEntry where
  id : Byte
  shape : Shape
  argc : Fin 2
  n : FloatCount
  post : PostClass
  deriving DecidableEq, Repr

/-- What the host drives onto the host port: the 3-bit selector and one lane per operand of R104's table. An operation reads the
lanes of its own operands and ignores the others. R104 gives the selector and the operands and no wire form for the operands;
the lanes are the model's (DESIGN CHOICE, log 1). A lane with a range holds any integer, in range or not (R10, R105). -/
structure HostRequest where
  opsel : BitVec 3
  cmd : Int := 0
  bytes : List Int := []
  count : Int := 0
  args : List Int := []
  respFramed : Int := 0
  timeout : Nat := 0
  deriving DecidableEq, Repr

/-- What happens next, outside the block or to it, as one entry of the schedule that State holds (log 4). -/
inductive Input where
  /-- The host presents an operation on the host port (R104). -/
  | op (r : HostRequest)
  /-- Nothing arrives: the block takes the next step of its transaction, or in `IDLE` the oldest held operation (R160). -/
  | block
  /-- The environment appends bytes to `RX_PENDING` (R66). -/
  | arrive (bs : List Byte)
  /-- The channel closes under the block (R64). -/
  | chanClosed
  /-- Reset (R260). If it meets a write in progress, the first `kept` bytes of the request have reached the line (R265). -/
  | reset (kept : Nat)
  deriving DecidableEq, Repr

end Sys2Proof
end

