-- ==== Sys2Proof/Machine/Operands.lean ====
section
/-! DEFINITION. Operand forms: range checks of R105, little-endian packing (R12), the checksum (R140) and the three frame layouts
of R90, R93 and R94. Every byte order and every byte position of the model is decided here. -/

namespace Sys2Proof.Machine

/-- A byte operand: the byte, or nothing where the number is outside 0..255 (R105). -/
def toByte? (n : Int) : Option Byte := if 0 ≤ n ∧ n < 256 then some (BitVec.ofInt 8 n) else none

/-- A word operand: the word, or nothing where the number is outside 0..2^32-1 (R105). -/
def toWord? (n : Int) : Option Word := if 0 ≤ n ∧ n < 2 ^ 32 then some (BitVec.ofInt 32 n) else none

/-- A byte-sequence operand: the bytes, or nothing where some element is outside 0..255 (R105). -/
def toBytes? : List Int → Option (List Byte)
  | [] => some []
  | n :: ns =>
    match toByte? n, toBytes? ns with
    | some b, some bs => some (b :: bs)
    | _, _ => none

/-- Bytes as the numbers of a byte-sequence operand (R10, R105). -/
def byteArgs (bs : List Byte) : List Int := bs.map fun b => (b.toNat : Int)

/-- `le32(w)`: the four bytes of a word, least significant first (R12, R65). -/
def le32 (w : Word) : List Byte :=
  [w.extractLsb' 0 8, w.extractLsb' 8 8, w.extractLsb' 16 8, w.extractLsb' 24 8]

/-- `from_le32` of four bytes, the first the least significant (R12). -/
def fromLe32 (b0 b1 b2 b3 : Byte) : Word := b3 ++ b2 ++ b1 ++ b0

/-- Consecutive groups of four bytes as words, `P[4i .. 4i+3]` the `i`-th (R144, R165); nothing where a group is incomplete. -/
def wordsOf? : List Byte → Option (List Word)
  | [] => some []
  | b0 :: b1 :: b2 :: b3 :: rest =>
    match wordsOf? rest with
    | some ws => some (fromLe32 b0 b1 b2 b3 :: ws)
    | none => none
  | _ => none

/-- `CHECKSUM(s)`: an 8-bit accumulator from 0, the carry discarded at every addition (R140). -/
def checksum (s : List Byte) : Byte := s.foldl (fun acc b => acc + b) 0#8

/-- The bytes of a frame before its checksum, `[START, CMD, LEN] ++ PAYLOAD` (R90). `LEN` is the payload's length (R91). -/
def frameBody (cmd : Byte) (payload : List Byte) : List Byte :=
  [Config.startByte, cmd, BitVec.ofNat 8 payload.length] ++ payload

/-- A whole frame (R90). Only payloads of at most 255 bytes have one (R91): `encodeFrame?` checks that. -/
def frame (cmd : Byte) (payload : List Byte) : List Byte :=
  frameBody cmd payload ++ [checksum (frameBody cmd payload)]

/-- The payload of an indexed-write request: the index byte, then the value least significant byte first (R93, R95). -/
def iwPayload (value : Word) : List Byte := Config.iwIndex :: le32 value

end Sys2Proof.Machine
end

