-- ==== Sys2Proof/WellFormed.lean ====
section
/-! DEFINITION. Which operations carry operands inside the ranges of R105 (and, for the commands, the argument count of R100):
the operations that no operand check of R142, R144, R146, R161 or R167 turns away as malformed. -/

namespace Sys2Proof

/-- An operand byte is 0..255 (R105). -/
def byteOk (b : Int) : Bool := 0 ≤ b && b < 256

/-- An argument of `EXEC` is a 32-bit word (R105). -/
def wordOk (w : Int) : Bool := 0 ≤ w && w < 2 ^ 32

/-- The operand ranges of R105, and the argument counts of R100 for the 14 commands. `EXEC` of an id that is no command has no
argument count of its own: R104 allows 0 or 1 words. -/
def Instr.wf : Instr → Bool
  | .readQuat args => args.isEmpty
  | .readRpy args => args.isEmpty
  | .readRpyVar args => args.isEmpty
  | .readAcc args => args.isEmpty
  | .readAccVar args => args.isEmpty
  | .readGyro args => args.isEmpty
  | .readGyroVar args => args.isEmpty
  | .readMag args => args.isEmpty
  | .getFilterGain args => args.isEmpty
  | .setWorldFrameId args => args.length == 1 && args.all wordOk
  | .getWorldFrameId args => args.isEmpty
  | .readQuatRpy args => args.isEmpty
  | .readAccGyro args => args.isEmpty
  | .clearDataBuffer args => args.isEmpty
  | .encode cmd payload => byteOk cmd && payload.all byteOk && payload.length ≤ Config.maxPayload
  | .encodeNp cmd => byteOk cmd
  | .decodeFloats raw count => raw.all byteOk && 0 ≤ count && count ≤ Config.maxDecodeCount
  | .decodeFrame frame => frame.all byteOk
  | .exec cmd args => byteOk cmd && args.length ≤ 1 && args.all wordOk
  | .openChan respFramed _ => respFramed == 0 || respFramed == 1
  | .closeChan => true

end Sys2Proof
end

