-- ==== Sys2Proof/Decode.lean ====
section
/-! DEFINITION. `CMD_TABLE`; from a host-port request to the operation it names and back; from the bytes of a request frame to the
command it carries and back; and the opcode table's numbering of both. -/

namespace Sys2Proof

/-- The number a float count stands for. -/
def FloatCount.toNat : FloatCount → Nat
  | .zero => 0
  | .one => 1
  | .three => 3
  | .four => 4
  | .six => 6
  | .eight => 8

/-- `CMD_TABLE`, row by row as R100 lists it. -/
def cmdRows : List CmdEntry :=
  [ ⟨0x01#8, .np, 0, .four, .real⟩,
    ⟨0x02#8, .np, 0, .three, .real⟩,
    ⟨0x03#8, .np, 0, .three, .real⟩,
    ⟨0x05#8, .np, 0, .three, .real⟩,
    ⟨0x09#8, .np, 0, .three, .real⟩,
    ⟨0x0B#8, .np, 0, .three, .real⟩,
    ⟨0x0F#8, .np, 0, .three, .real⟩,
    ⟨0x11#8, .np, 0, .three, .real⟩,
    ⟨0x1E#8, .iw, 0, .one, .real⟩,
    ⟨0x1F#8, .iw, 1, .one, .int⟩,
    ⟨0x20#8, .iw, 0, .one, .int⟩,
    ⟨0x22#8, .np, 0, .eight, .real7⟩,
    ⟨0x23#8, .np, 0, .six, .real⟩,
    ⟨0x27#8, .iw, 0, .one, .int⟩ ]

/-- `CMD_TABLE[cmd]`, or nothing for the 242 unassigned ids (R100, R102). -/
def cmdEntry? (cmd : Byte) : Option CmdEntry := cmdRows.find? fun e => e.id == cmd

/-- The operation an `EXEC` with this command operand is: the command's own constructor for an assigned id (R99, R108), `exec`
for every other number (log 2). -/
def Instr.ofExec (cmd : Int) (args : List Int) : Instr :=
  match cmd with
  | 0x01 => .readQuat args
  | 0x02 => .readRpy args
  | 0x03 => .readRpyVar args
  | 0x05 => .readAcc args
  | 0x09 => .readAccVar args
  | 0x0B => .readGyro args
  | 0x0F => .readGyroVar args
  | 0x11 => .readMag args
  | 0x1E => .getFilterGain args
  | 0x1F => .setWorldFrameId args
  | 0x20 => .getWorldFrameId args
  | 0x22 => .readQuatRpy args
  | 0x23 => .readAccGyro args
  | 0x27 => .clearDataBuffer args
  | cmd => .exec cmd args

/-- Why the host port turns a request down. -/
inductive PortError where
  /-- `OPSEL = 7` (R104, U9). -/
  | illegalOpsel
  deriving DecidableEq, Repr

/-- Why the frame reader turns bytes down. -/
inductive FrameError where
  /-- The bytes are no frame: too short, wrong start marker, wrong length (R90, R92). -/
  | notAFrame
  /-- The checksum byte is wrong (R140). -/
  | badChecksum
  /-- The command id is one of the 242 unassigned ones (R102). -/
  | unassignedCmd
  /-- The payload is not of the command's shape (R93, R94), or its index is not `IW_INDEX` (R93). -/
  | badShape
  /-- A command without arguments carries a value that is not `DUMMY_VALUE` (R95). -/
  | badDummy
  deriving DecidableEq, Repr

/-- The operation a host-port request names (R104): total, and refusing by name. -/
def decodeRequest (r : HostRequest) : Except PortError Instr :=
  match r.opsel with
  | 0#3 => .ok (.encode r.cmd r.bytes)
  | 1#3 => .ok (.encodeNp r.cmd)
  | 2#3 => .ok (.decodeFloats r.bytes r.count)
  | 3#3 => .ok (.decodeFrame r.bytes)
  | 4#3 => .ok (Instr.ofExec r.cmd r.args)
  | 5#3 => .ok (.openChan r.respFramed r.timeout)
  | 6#3 => .ok .closeChan
  | _ => .error .illegalOpsel

/-- The command id and the arguments of an operation that is an `EXEC` (R108), nothing for the other six host operations. -/
def Instr.execOperands? : Instr → Option (Int × List Int)
  | .readQuat args => some (0x01, args)
  | .readRpy args => some (0x02, args)
  | .readRpyVar args => some (0x03, args)
  | .readAcc args => some (0x05, args)
  | .readAccVar args => some (0x09, args)
  | .readGyro args => some (0x0B, args)
  | .readGyroVar args => some (0x0F, args)
  | .readMag args => some (0x11, args)
  | .getFilterGain args => some (0x1E, args)
  | .setWorldFrameId args => some (0x1F, args)
  | .getWorldFrameId args => some (0x20, args)
  | .readQuatRpy args => some (0x22, args)
  | .readAccGyro args => some (0x23, args)
  | .clearDataBuffer args => some (0x27, args)
  | .exec cmd args => some (cmd, args)
  | .encode _ _ => none
  | .encodeNp _ => none
  | .decodeFloats _ _ => none
  | .decodeFrame _ => none
  | .openChan _ _ => none
  | .closeChan => none

/-- The host-port request of an operation, the lanes it does not use left at zero (R104). -/
def encodeRequest : Instr → HostRequest
  | .encode cmd payload => { opsel := 0#3, cmd := cmd, bytes := payload }
  | .encodeNp cmd => { opsel := 1#3, cmd := cmd }
  | .decodeFloats raw count => { opsel := 2#3, bytes := raw, count := count }
  | .decodeFrame frame => { opsel := 3#3, bytes := frame }
  | .openChan respFramed timeout => { opsel := 5#3, respFramed := respFramed, timeout := timeout }
  | .closeChan => { opsel := 6#3 }
  | i =>
    match i.execOperands? with
    | some (cmd, args) => { opsel := 4#3, cmd := cmd, args := args }
    | none => { opsel := 7#3 }

/-- The one form an operation has after decoding: `EXEC` of an assigned id is that command (R108; log 2). -/
def Instr.canon : Instr → Instr
  | .exec cmd args => Instr.ofExec cmd args
  | i => i

/-- The payload `EXEC` sends for a table entry (R162): none for NP, the argument or the dummy value for IW. -/
def requestPayload (e : CmdEntry) (arg : Option Word) : List Byte :=
  match e.shape with
  | .np => []
  | .iw => Machine.iwPayload (arg.getD Config.dummyValue)

/-- The complete request frame of a well-formed command (R101), nothing for the other operations. -/
def encodeFrame? (i : Instr) : Option (List Byte) :=
  match i.execOperands? with
  | none => none
  | some (cmd, args) =>
    match Machine.toByte? cmd with
    | none => none
    | some c =>
      match cmdEntry? c, args with
      | some e, [] => if e.argc = 0 then some (Machine.frame c (requestPayload e none)) else none
      | some e, [a] =>
        match Machine.toWord? a with
        | some w => if e.argc = 1 then some (Machine.frame c (requestPayload e (some w))) else none
        | none => none
      | _, _ => none

/-- The arguments carried by the payload of a request for table entry `e` (R93-R95). -/
def argsOfPayload (e : CmdEntry) (payload : List Byte) : Except FrameError (List Int) :=
  match e.shape, payload with
  | .np, [] => .ok []
  | .iw, [ix, b0, b1, b2, b3] =>
    if ix != Config.iwIndex then .error .badShape
    else if e.argc = 1 then .ok [((Machine.fromLe32 b0 b1 b2 b3).toNat : Int)]
    else if Machine.fromLe32 b0 b1 b2 b3 = Config.dummyValue then .ok []
    else .error .badDummy
  | _, _ => .error .badShape

/-- The command a request frame carries: total on any bytes, refusing by name, the command selected by byte 1 alone (R99). It reads
exactly the frames `EXEC` sends (R101); what the remote device makes of other frames is in no source (U2, U3; log 24). -/
def decodeFrameBytes (bs : List Byte) : Except FrameError Instr :=
  match bs with
  | start :: cmd :: len :: rest =>
    if start != Config.startByte || rest.length != len.toNat + 1 then .error .notAFrame
    else if rest.getLast? != some (Machine.checksum ([start, cmd, len] ++ rest.take len.toNat)) then .error .badChecksum
    else
      match cmdEntry? cmd with
      | none => .error .unassignedCmd
      | some e => (argsOfPayload e (rest.take len.toNat)).map (Instr.ofExec cmd.toNat)
  | _ => .error .notAFrame

/-- The bytes of a number, the least significant first. -/
def bytesOfNat : Nat → Nat → List Byte
  | 0, _ => []
  | k + 1, w => BitVec.ofNat 8 w :: bytesOfNat k (w / 256)

/-- The host-port request that stands for a word of the opcode table. The table numbers a command by frame byte 1 (`CMD`, mask 0xFF)
and a host operation by `OPSEL` (mask 0x7). Up to 3 bits: the selector. Up to 8 bits: an assigned command id is that command, every
other word is the selector in its low three bits (log 3). More bits: a whole request frame, its first byte the least significant.
All other operands are zeros. -/
def tableRequest (nbits w : Nat) : HostRequest :=
  if nbits ≤ 3 then { opsel := BitVec.ofNat 3 w }
  else if nbits ≤ 8 then
    match cmdEntry? (BitVec.ofNat 8 w) with
    | some e => { opsel := 4#3, cmd := (w % 256 : Nat), args := List.replicate e.argc.val 0 }
    | none => { opsel := BitVec.ofNat 3 w }
  else
    match decodeFrameBytes (bytesOfNat (nbits / 8) w) with
    | .ok i => encodeRequest i
    | .error _ => { opsel := 7#3 }

/-- The operation the decoder reads from a word of the opcode table, nothing where it refuses. -/
def decodeTableWord (nbits w : Nat) : Option Instr :=
  match decodeRequest (tableRequest nbits w) with
  | .ok i => some i
  | .error _ => none

end Sys2Proof
end

