-- ==== Sys2Proof/Machine/State.lean ====
section
/-! DEFINITION. The state of the machine: the architectural state of R20, the environment's streams (R37), and the model's own
record of what the host has received and of what host and environment do next. -/

namespace Sys2Proof.Machine

/-- `FSM_STATE` (R23). The illegal values 5, 6 and 7 are excluded by type (U10; log 16). -/
inductive FsmState where
  | idle
  | requestSent
  | awaitingResponse
  | decoded
  | failed
  deriving DecidableEq, Repr

/-- `ERR` (R32, R221). The illegal value 7 is excluded by type (U10; log 16). -/
inductive ErrCode where
  | none
  | encodingError
  | transportError
  | shortReadError
  | framingError
  | checksumMismatch
  | nonFiniteIntegerError
  deriving DecidableEq, Repr

/-- A reason code with its recorded information (R221, last column). -/
inductive Info where
  /-- `EncodingError`: an operand outside its range (R142, R161, R167). -/
  | malformedArg
  /-- `EncodingError`: a payload of more than 255 bytes (R142). -/
  | payloadTooLong (len : Nat)
  /-- `EncodingError`: an id `CMD_TABLE` does not hold (R161). -/
  | unassignedCmd (cmd : Byte)
  /-- `EncodingError`: a wrong argument count (R161). -/
  | arity (given : Nat)
  /-- `TransportError`: the channel is closed (R161, R164). -/
  | closed
  /-- `TransportError`: the write failed (R163). -/
  | writeFailed
  /-- `TransportError`: the channel could not be opened (R167). -/
  | openFailed
  /-- `ShortReadError` (R164). -/
  | shortRead (expected received : Nat)
  /-- `FramingError`: an operand outside its range (R144, R146). -/
  | malformed
  /-- `FramingError`: the byte count is not four times the float count (R144). -/
  | lengthMismatch (len : Nat)
  /-- `FramingError`: fewer than four bytes (R146). -/
  | shortFrame (len : Nat)
  /-- `FramingError`: the first byte is not the start marker (R146, R164). -/
  | badStart (byte : Byte)
  /-- `FramingError`: fewer bytes than the length field says (R146). -/
  | truncated (len : Nat)
  /-- `FramingError`: more bytes than the length field says (R146). -/
  | trailingBytes (len : Nat)
  /-- `FramingError`: a response to another command (R164). -/
  | badCmdEcho (byte : Byte)
  /-- `FramingError`: a response's length field is not `4n` (R164). -/
  | badLengthField (byte : Byte)
  /-- `ChecksumMismatch` (R146, R164). -/
  | checksum (expected received : Byte)
  /-- `NonFiniteIntegerError`: the NaN or infinity that has no integer (R166, R202). -/
  | nonFinite (value : Bits64)
  deriving DecidableEq, Repr

/-- The caller value of an `EXEC` (R203): a tuple of binary64 values or one unbounded integer. -/
inductive CallerValue where
  | reals (xs : List Bits64)
  | int (t : Int)
  deriving DecidableEq, Repr

/-- What a host operation hands to the host (R104, result column). -/
inductive HostResult where
  /-- `ENCODE`, `ENCODE_NP`: the frame's bytes. -/
  | frame (bs : List Byte)
  /-- `DECODE_FLOATS`: the words. -/
  | words (ws : List Word)
  /-- `DECODE_FRAME`: command id and payload. -/
  | split (cmd : Byte) (payload : List Byte)
  /-- `EXEC`: the caller value and the raw words (R166). -/
  | value (v : CallerValue) (raw : List Word)
  /-- `OPEN`, `CLOSE`. -/
  | done
  /-- `err(code, info)` (R224, R225). -/
  | err (code : ErrCode) (info : Info)
  deriving DecidableEq, Repr

/-- Why the machine stops. Both reasons name states that no rule of the spec writes; no run from reset meets them (log 15). -/
inductive Fault where
  /-- Raised by a read or delivery step whose rule would read an element that holds `⊥` (`CUR_CMD`, a `RESULT` register, the recorded
  information of an error): such a rule gives the host nothing (R16, R30). Safe: the model stops. -/
  | readsNoValue
  /-- Raised by a read or delivery step that finds the latched registers of the transaction in disagreement (`CUR_CMD` not in `CMD_TABLE`,
  `EXP_BYTES` not the size `EXP_N` and the response mode give, `RES_CNT` too small for the post-processing class). Safe: the model stops. -/
  | inconsistentTransaction
  deriving DecidableEq, Repr

/-- Why an operation has no meaning. -/
inductive Refusal where
  /-- Raised by `exec` for an instruction that has no meaning yet; no arm does. Safe: the model stops. -/
  | notModelled (mnemonic : String)
  /-- Raised by `step` when the host presents `OPSEL = 7`: the port refuses it, changes no state and returns no result (R104, U9). Safe:
  the model stops (log 14). -/
  | illegalOpsel
  deriving DecidableEq, Repr

/-- The state. `⊥`, the spec's own "no value" (R16), is `none`. -/
structure State where
  /-- `FSM_STATE` (R23). -/
  fsmState : FsmState
  /-- `CUR_CMD` (R24). -/
  curCmd : Option Byte
  /-- `CUR_ARGC` (R25). -/
  curArgc : Fin 2
  /-- `CUR_ARG` (R25). -/
  curArg : Option Word
  /-- `EXP_N` (R26). -/
  expN : FloatCount
  /-- `EXP_BYTES`, 0..36 (R26). -/
  expBytes : Fin 37
  /-- `TX_FRAME` (R27). -/
  txFrame : List Byte
  /-- `RX_BUF` (R28). -/
  rxBuf : List Byte
  /-- `RX_LEN`, 0..36 (R28). -/
  rxLen : Fin 37
  /-- `RESULT[0..7]` (R29). -/
  result : Vector (Option Word) 8
  /-- `RES_CNT`, 0..8 (R31). -/
  resCnt : Fin 9
  /-- `ERR` (R32). -/
  err : ErrCode
  /-- `CFG_RESP_FRAMED` (R33). -/
  cfgRespFramed : Bool
  /-- `CFG_T_TIMEOUT`, the OPEN parameter `T_TIMEOUT` (R34; log 17). -/
  cfgTTimeout : Option Nat
  /-- `CHAN_OPEN` (R35). -/
  chanOpen : Bool
  /-- The environment's `TX_STREAM` (R37). -/
  txStream : List Byte
  /-- The environment's `RX_PENDING` (R37). -/
  rxPending : List Byte
  /-- Model's own: the information a raise records for delivery (R224; log 10). -/
  errInfo : Option Info
  /-- Model's own: every result handed to the host, oldest first (log 11). -/
  hostOut : List HostResult
  /-- Model's own: operations held until the transaction in progress is delivered, oldest first (R160; log 5). -/
  held : List Instr
  /-- Model's own: what the host and the environment do next (log 4). -/
  inputs : List Input
  /-- Model's own: the environment's next answers to `TxWrite` (log 7). -/
  txDraws : List TxDraw
  /-- Model's own: the environment's next answers to `RxRead` (log 7). -/
  rxDraws : List RxDraw
  /-- Model's own: the environment's next answers to `OPEN`, true for success (log 7). -/
  openDraws : List Bool
  /-- Model's own: the index of the next free value of Config (log 7, log 9). -/
  freeCtr : Nat
  deriving DecidableEq, Repr

/-- The machine right after reset: R261 for the block's elements. The streams are empty (DESIGN CHOICE, log 12: the spec gives none),
and the model's own fields hold nothing (DESIGN CHOICE, log 13). -/
def State.reset : State where
  fsmState := .idle
  curCmd := none
  curArgc := 0
  curArg := none
  expN := .zero
  expBytes := 0
  txFrame := []
  rxBuf := []
  rxLen := 0
  result := #v[none, none, none, none, none, none, none, none]
  resCnt := 0
  err := .none
  cfgRespFramed := false
  cfgTTimeout := none
  chanOpen := false
  txStream := []
  rxPending := []
  errInfo := none
  hostOut := []
  held := []
  inputs := []
  txDraws := []
  rxDraws := []
  openDraws := []
  freeCtr := 0

end Sys2Proof.Machine
end

