-- ==== Sys2Proof/Machine/Flags.lean ====
section
/-! DEFINITION. The block's one status register: which `ERR` code each reason stands for, and the codes' numbers. The block has no flag
or condition code (R32). -/

namespace Sys2Proof.Machine

/-- The error each reason belongs to (R221). -/
def errCodeOf : Info → ErrCode
  | .malformedArg => .encodingError
  | .payloadTooLong _ => .encodingError
  | .unassignedCmd _ => .encodingError
  | .arity _ => .encodingError
  | .closed => .transportError
  | .writeFailed => .transportError
  | .openFailed => .transportError
  | .shortRead _ _ => .shortReadError
  | .malformed => .framingError
  | .lengthMismatch _ => .framingError
  | .shortFrame _ => .framingError
  | .badStart _ => .framingError
  | .truncated _ => .framingError
  | .trailingBytes _ => .framingError
  | .badCmdEcho _ => .framingError
  | .badLengthField _ => .framingError
  | .checksum _ _ => .checksumMismatch
  | .nonFinite _ => .nonFiniteIntegerError

/-- The 3-bit encoding of `ERR` (R221). -/
def errBits : ErrCode → BitVec 3
  | .none => 0#3
  | .encodingError => 1#3
  | .transportError => 2#3
  | .shortReadError => 3#3
  | .framingError => 4#3
  | .checksumMismatch => 5#3
  | .nonFiniteIntegerError => 6#3

/-- The 3-bit encoding of `FSM_STATE` (R23). -/
def fsmBits : FsmState → BitVec 3
  | .idle => 0#3
  | .requestSent => 1#3
  | .awaitingResponse => 2#3
  | .decoded => 3#3
  | .failed => 4#3

end Sys2Proof.Machine
end

