-- ==== Sys2Proof/Machine/Ops.lean ====
section
/-! DEFINITION. The named operations over State: the transport primitives with their draws (R62, R63), the result file (R29), raising an
error (R224) and the return to `IDLE` (R166, R226), holding an operation (R160), the environment's events (R64, R66) and reset (R260). -/

namespace Sys2Proof.Machine

/-! ### Draws of the environment (R15; log 7) -/

/-- The environment's answer to the next `TxWrite`: the first listed one, or a free value. -/
def takeTx (s : State) : TxDraw × State :=
  match s.txDraws with
  | d :: ds => (d, { s with txDraws := ds })
  | [] => (Config.freeTx s.freeCtr, { s with freeCtr := s.freeCtr + 1 })

/-- The environment's answer to the next `RxRead`: the first listed one, or a free value. -/
def takeRx (s : State) : RxDraw × State :=
  match s.rxDraws with
  | d :: ds => (d, { s with rxDraws := ds })
  | [] => (Config.freeRx s.freeCtr, { s with freeCtr := s.freeCtr + 1 })

/-- Whether the environment opens the channel at the next `OPEN`: the first listed answer, or a free value. -/
def takeOpen (s : State) : Bool × State :=
  match s.openDraws with
  | d :: ds => (d, { s with openDraws := ds })
  | [] => (Config.freeOpen s.freeCtr, { s with freeCtr := s.freeCtr + 1 })

/-! ### Transport primitives -/

/-- `TxWrite(bs)` (R62): true for `ok`. A failed write leaves the drawn part, the first `kept` bytes. A closed channel fails (R64). -/
def txWrite (bs : List Byte) (s : State) : Bool × State :=
  let d := (takeTx s).1
  let t := (takeTx s).2
  if s.chanOpen && !d.fails then (true, { t with txStream := t.txStream ++ bs })
  else (false, { t with txStream := t.txStream ++ bs.take d.kept })

/-- `RxRead(n)` (R63): the bytes, which leave `RX_PENDING` from its front, or nothing for `closed`, which clears `CHAN_OPEN` and
consumes nothing. A closed channel draws `closed` (R64). -/
def rxRead (n : Nat) (s : State) : Option (List Byte) × State :=
  let t := (takeRx s).2
  match s.chanOpen, (takeRx s).1 with
  | true, .bytes k =>
    (some (t.rxPending.take (min k n)), { t with rxPending := t.rxPending.drop (min k n) })
  | _, _ => (none, { t with chanOpen := false })

/-! ### Results -/

/-- Hands a result to the host (R104, R166; log 11). -/
def giveHost (r : HostResult) (s : State) : State := { s with hostOut := s.hostOut ++ [r] }

/-- The result of an operation that either succeeds or raises an error outside a transaction: `err(code, info)` goes straight to
the host and no dispatcher state is written (R225). -/
def directResult {α : Type} (onOk : α → HostResult) : Except Info α → HostResult
  | .ok a => onOk a
  | .error info => .err (errCodeOf info) info

/-- `RESULT[i] <- ws[i]` for every `i < len(ws)`, the other registers left as they are (R165). -/
def mergeResult (ws : List Word) (old : Vector (Option Word) 8) : Vector (Option Word) 8 :=
  Vector.ofFn fun i : Fin 8 => (ws[i.val]?).or old[i]

/-- `RESULT[0 .. n-1]`, nothing where one of them is `⊥` (R30, R203). -/
def resultWords (n : Nat) (file : Vector (Option Word) 8) : Option (List Word) :=
  (file.toList.take n).mapM id

/-! ### Taking an error and returning from it -/

/-- Raise inside `EXEC` (R224): `ERR` gets the code, the information is recorded, the state machine goes to `FAILED`. -/
def raise (info : Info) (s : State) : State :=
  { s with err := errCodeOf info, errInfo := some info, fsmState := .failed }

/-- The end of delivery (R166): frame and response are discarded and the state machine is `IDLE` again. The only way out of
`DECODED` and `FAILED` but for reset (R226). -/
def finish (s : State) : State :=
  { s with txFrame := [], rxBuf := [], rxLen := 0, errInfo := none, fsmState := .idle }

/-! ### Acceptance and hold -/

/-- What acceptance clears before any check (R160 b). -/
def clearTransaction (s : State) : State :=
  { s with result := Vector.replicate 8 none, resCnt := 0, rxBuf := [], rxLen := 0, txFrame := [], err := .none,
           errInfo := none }

/-- Holds an operation until the transaction in progress has been delivered, behind those already held (R160 a; log 5). -/
def hold (i : Instr) (s : State) : State := { s with held := s.held ++ [i] }

/-- An operation that is accepted only in `IDLE` and held in any other state (R160 a, R167, R168). -/
def present (i : Instr) (effect : State → State) (s : State) : Host.Outcome State Fault Refusal :=
  .next (if s.fsmState = .idle then effect s else hold i s)

/-! ### Events from outside the block -/

/-- The environment appends bytes to `RX_PENDING` (R66). -/
def envArrive (bs : List Byte) (s : State) : State := { s with rxPending := s.rxPending ++ bs }

/-- The channel closes under the block (R64). -/
def envClose (s : State) : State := { s with chanOpen := false }

/-- Reset (R260, R261): the block's elements take their reset values; the environment's streams, the results already delivered and
what the host and environment do next stay (R262, R265). A write in progress may have put any part of the request, its first `kept` bytes,
on the line (R265; log 18). No outcome is delivered. -/
def applyReset (kept : Nat) (s : State) : State :=
  { State.reset with
    txStream := s.txStream ++ (if s.fsmState = .requestSent then s.txFrame.take kept else [])
    rxPending := s.rxPending
    hostOut := s.hostOut
    held := s.held
    inputs := s.inputs
    txDraws := s.txDraws
    rxDraws := s.rxDraws
    openDraws := s.openDraws
    freeCtr := s.freeCtr }

end Sys2Proof.Machine
end

