-- ==== Sys2Proof/Machine/Channel.lean ====
section
/-! DEFINITION. The channel operations `OPEN` (R167) and `CLOSE` (R168). Their errors write neither `ERR` nor `FSM_STATE` (R225). -/

namespace Sys2Proof.Machine

/-- `OPEN` in `IDLE` (R167): a malformed operand, or the environment's answer. A failed `OPEN` keeps the configuration. -/
def openEffect (respFramed : Int) (timeout : Nat) (s : State) : State :=
  if respFramed ≠ 0 ∧ respFramed ≠ 1 then giveHost (.err (errCodeOf .malformedArg) .malformedArg) s
  else
    let t := (takeOpen s).2
    bif (takeOpen s).1 then
      giveHost .done { t with chanOpen := true, cfgRespFramed := respFramed == 1, cfgTTimeout := some timeout }
    else giveHost (.err (errCodeOf .openFailed) .openFailed) { t with chanOpen := false }

/-- `CLOSE` in `IDLE` (R168): the configuration is kept. -/
def closeEffect (s : State) : State := giveHost .done { s with chanOpen := false }

/-- `OPEN` as a host operation: accepted only in `IDLE`, else held (R167). -/
def execOpen (respFramed : Int) (timeout : Nat) (s : State) : Host.Outcome State Fault Refusal :=
  present (.openChan respFramed timeout) (openEffect respFramed timeout) s

/-- `CLOSE` as a host operation: accepted only in `IDLE`, else held (R168). -/
def execClose (s : State) : Host.Outcome State Fault Refusal := present .closeChan closeEffect s

end Sys2Proof.Machine
end

