-- ==== Sys2Proof/Machine/Codec.lean ====
section
/-! DEFINITION. The frame codec: `ENCODE`, `ENCODE_NP`, `DECODE_FLOATS` and `DECODE_FRAME`. Each is a pure function of its operands
(R130); as a host operation it hands its result to the host and changes nothing else, in every `FSM_STATE`. -/

namespace Sys2Proof.Machine

/-- `ENCODE` (R142). -/
def codecEncode (cmd : Int) (payload : List Int) : Except Info (List Byte) :=
  match toByte? cmd, toBytes? payload with
  | some c, some p => if Config.maxPayload < p.length then .error (.payloadTooLong p.length) else .ok (frame c p)
  | _, _ => .error .malformedArg

/-- `DECODE_FLOATS` (R144). No bit of a word is changed (R145). -/
def codecDecodeFloats (raw : List Int) (count : Int) : Except Info (List Word) :=
  match toBytes? raw with
  | none => .error .malformed
  | some bs =>
    if count < 0 ∨ Config.maxDecodeCount < count then .error .malformed
    else if bs.length ≠ 4 * count then .error (.lengthMismatch bs.length)
    else
      match wordsOf? bs with
      | some ws => .ok ws
      | none => .error (.lengthMismatch bs.length)

/-- The checks of `DECODE_FRAME` on bytes, in the order of R146 (R227). -/
def splitFrame (f : List Byte) : Except Info (Byte × List Byte) :=
  match f with
  | start :: cmd :: len :: b :: rest =>
    if start ≠ Config.startByte then .error (.badStart start)
    else if f.length < len.toNat + Config.frameOverhead then .error (.truncated f.length)
    else if len.toNat + Config.frameOverhead < f.length then .error (.trailingBytes f.length)
    else
      let c := checksum (f.take (3 + len.toNat))
      let received := (b :: rest).getLast (by simp)
      if received ≠ c then .error (.checksum c received) else .ok (cmd, (b :: rest).take len.toNat)
  | _ => .error (.shortFrame f.length)

/-- `DECODE_FRAME` (R146). -/
def codecDecodeFrame (f : List Int) : Except Info (Byte × List Byte) :=
  match toBytes? f with
  | none => .error .malformed
  | some bs => splitFrame bs

/-- `ENCODE` as a host operation (R142, R130). -/
def execEncode (cmd : Int) (payload : List Int) (s : State) : Host.Outcome State Fault Refusal :=
  .next (giveHost (directResult .frame (codecEncode cmd payload)) s)

/-- `ENCODE_NP` as a host operation: `ENCODE(cmd, [])` (R143, R108). -/
def execEncodeNp (cmd : Int) (s : State) : Host.Outcome State Fault Refusal :=
  .next (giveHost (directResult .frame (codecEncode cmd [])) s)

/-- `DECODE_FLOATS` as a host operation (R144, R130). -/
def execDecodeFloats (raw : List Int) (count : Int) (s : State) : Host.Outcome State Fault Refusal :=
  .next (giveHost (directResult .words (codecDecodeFloats raw count)) s)

/-- `DECODE_FRAME` as a host operation (R146, R130). -/
def execDecodeFrame (f : List Int) (s : State) : Host.Outcome State Fault Refusal :=
  .next (giveHost (directResult (fun p => .split p.1 p.2) (codecDecodeFrame f)) s)

end Sys2Proof.Machine
end

