-- ==== Sys2Proof/Machine/Float.lean ====
section
/-! DEFINITION. The float primitives of R13 and the two numeric functions of the post-processing: `ROUND6` (R201) and `TRUNC`
(R202). All arithmetic is exact on natural numbers; each narrowing is one explicit rounding. -/

namespace Sys2Proof.Machine

/-- The value of a float encoding: NaN, an infinity, or `± mant · 2^exp` (zeros have `mant = 0`). -/
inductive FloatVal where
  | nan
  | inf (neg : Bool)
  | fin (neg : Bool) (mant : Nat) (exp : Int)
  deriving DecidableEq, Repr

/-- `f32(w)`: sign bit 31, exponent bits 30:23 biased by 127, fraction bits 22:0 (R13, G1). -/
def f32 (w : Word) : FloatVal :=
  let neg := w.getLsbD 31
  let e := (w.extractLsb' 23 8).toNat
  let f := (w.extractLsb' 0 23).toNat
  if e = 255 then (if f = 0 then .inf neg else .nan)
  else if e = 0 then .fin neg f (-149)
  else .fin neg (2 ^ 23 + f) ((e : Int) - 150)

/-- The value of a binary64 encoding: sign bit 63, exponent bits 62:52 biased by 1023, fraction bits 51:0. -/
def f64Val (b : Bits64) : FloatVal :=
  let neg := b.getLsbD 63
  let e := (b.extractLsb' 52 11).toNat
  let f := (b.extractLsb' 0 52).toNat
  if e = 2047 then (if f = 0 then .inf neg else .nan)
  else if e = 0 then .fin neg f (-1074)
  else .fin neg (2 ^ 52 + f) ((e : Int) - 1075)

/-- The rational number a finite float value is; nothing for a NaN or an infinity. -/
def FloatVal.toRat? : FloatVal → Option ℚ
  | .nan => none
  | .inf _ => none
  | .fin neg mant exp => some ((if neg then -1 else 1) * (mant : ℚ) * (2 : ℚ) ^ exp)

/-- The integer nearest to `num / den`, an exact half going to the even one (R201). -/
def roundHalfEven (num den : Nat) : Nat :=
  let q := num / den
  let r := num % den
  if 2 * r < den then q
  else if den < 2 * r then q + 1
  else if q % 2 = 0 then q else q + 1

/-- `2^e` as a pair numerator, denominator, for a possibly negative exponent. -/
def pow2Frac (e : Int) : Nat × Nat := (2 ^ e.toNat, 2 ^ (-e).toNat)

/-- The greatest `e` with `2^e ≤ num / den`, for positive `num` and `den`. -/
def floorLog2 (num den : Nat) : Int :=
  let e : Int := (Nat.log2 num : Int) - (Nat.log2 den : Int)
  let p := pow2Frac e
  if p.1 * den ≤ num * p.2 then e else e - 1

/-- The magnitude bits of the binary float nearest to `num / den`, ties to even: `p` significand bits, `emin` the exponent of the
smallest subnormal, `infBits` the encoding of infinity, to which every greater magnitude goes. The unit in the last place is
`2^u`; the encoding of `m · 2^u` is `(u - emin) · 2^(p-1) + m`, for subnormals and normals alike. -/
def nearestBits (p : Nat) (emin : Int) (infBits num den : Nat) : Nat :=
  if num = 0 then 0
  else
    let u := max (floorLog2 num den - ((p : Int) - 1)) emin
    let q := pow2Frac u
    let m := roundHalfEven (num * q.2) (den * q.1)
    min ((u - emin).toNat * 2 ^ (p - 1) + m) infBits

/-- The magnitude bits of the binary64 value nearest to `num / den`, ties to even (R201). -/
def nearest64 (num den : Nat) : Nat := nearestBits 53 (-1074) (0x7FF * 2 ^ 52) num den

/-- The magnitude bits of the binary32 value nearest to `num / den`, ties to even (R107). -/
def nearest32 (num den : Nat) : Nat := nearestBits 24 (-149) (0xFF * 2 ^ 23) num den

/-- A binary64 encoding from its sign and magnitude bits. -/
def pack64 (neg : Bool) (mag : Nat) : Bits64 := BitVec.ofBool neg ++ BitVec.ofNat 63 mag

/-- A binary32 encoding from its sign and magnitude bits. -/
def pack32 (neg : Bool) (mag : Nat) : Word := BitVec.ofBool neg ++ BitVec.ofNat 31 mag

/-- A NaN of free sign and free nonzero fraction, the `fresh`-th such value (U6; log 9). -/
def freeNan (fresh : Nat) : Bits64 :=
  let f := Config.freeNanFraction fresh
  pack64 (Config.freeNanSign fresh) (0x7FF * 2 ^ 52 + (if f = 0#52 then 1 else f.toNat))

/-- `f64(x)`: the binary64 encoding of a binary32 value, exact for every value but a NaN (R13, G2). -/
def widen (fresh : Nat) (w : Word) : Bits64 :=
  match f32 w with
  | .nan => freeNan fresh
  | .inf neg => pack64 neg (0x7FF * 2 ^ 52)
  | .fin neg mant exp =>
    let p := pow2Frac exp
    pack64 neg (nearest64 (mant * p.1) p.2)

/-- The integer `k` of R201 without its sign: `|x| · 10^6` rounded to the nearest integer, ties to even. -/
def microUnits (mant : Nat) (exp : Int) : Nat :=
  let p := pow2Frac exp
  roundHalfEven (mant * 10 ^ 6 * p.1) p.2

/-- `ROUND6` (R201). `fresh` indexes the free value that a NaN gives. -/
def round6 (fresh : Nat) (w : Word) : Bits64 :=
  match f32 w with
  | .nan => freeNan fresh
  | .inf neg => pack64 neg (0x7FF * 2 ^ 52)
  | .fin neg mant exp => pack64 neg (nearest64 (microUnits mant exp) (10 ^ 6))

/-- `TRUNC` (R202): the integer toward zero; nothing where the value is not finite, which is R202's `error(NONFINITE, y)`. -/
def trunc (b : Bits64) : Option Int :=
  match f64Val b with
  | .nan => none
  | .inf _ => none
  | .fin neg mant exp =>
    let p := pow2Frac exp
    let t : Nat := mant * p.1 / p.2
    some (if neg then -(t : Int) else (t : Int))

end Sys2Proof.Machine
end

