-- ==== Sys2Proof/Machine/PostProcessing.lean ====
section
/-! DEFINITION. `POST` (R203): the caller value of a decoded response, by the command's class. It never changes `RESULT` (R200). -/

namespace Sys2Proof.Machine

/-- `ROUND6` of each word of a tuple; `fresh` indexes the free value of the first (R203; log 9). -/
def round6All : Nat → List Word → List Bits64
  | _, [] => []
  | fresh, w :: ws => round6 fresh w :: round6All (fresh + 1) ws

/-- `POST` (R203): a caller value, or the non-finite value that has no integer (R202). Round first, then truncate (R204). Nothing where
there are fewer words than the class reads, which no decoded response has. -/
def post (fresh : Nat) : PostClass → List Word → Option (Except Bits64 CallerValue)
  | .real, ws => some (.ok (.reals (round6All fresh ws)))
  | .real7, ws => if 7 ≤ ws.length then some (.ok (.reals (round6All fresh (ws.take 7)))) else none
  | .int, [] => none
  | .int, w :: _ =>
    match trunc (round6 fresh w) with
    | some t => some (.ok (.int t))
    | none => some (.error (round6 fresh w))

end Sys2Proof.Machine
end

