-- ==== Sys2Proof/Machine/Transaction.lean ====
section
/-! DEFINITION. The `EXEC` transaction, one definition per event (R6): acceptance with its checks and the latch (R160-R162), the write
step (R163), the read step with the decode (R164, R165), and delivery (R166). -/

namespace Sys2Proof.Machine

/-- The bytes of a response to a command with `n` floats, raw or framed (R26, R96, R97). -/
def responseBytes (n : FloatCount) (framed : Bool) : Nat := 4 * n.toNat + (if framed then 4 else 0)

/-- The pre-send checks in the order of R161: the table entry and the argument word, or the first error. -/
def presendCheck (cmd : Int) (args : List Int) (chanOpen : Bool) : Except Info (CmdEntry × Option Word) :=
  match toByte? cmd with
  | none => .error .malformedArg
  | some c =>
    match cmdEntry? c with
    | none => .error (.unassignedCmd c)
    | some e =>
      if args.length ≠ e.argc.val then .error (.arity args.length)
      else
        match args with
        | [] => if chanOpen then .ok (e, none) else .error .closed
        | a :: _ =>
          match toWord? a with
          | none => .error .malformedArg
          | some w => if chanOpen then .ok (e, some w) else .error .closed

/-- The latch and the request frame (R162). -/
def latch (e : CmdEntry) (arg : Option Word) (s : State) : State :=
  { s with
    curCmd := some e.id
    curArgc := e.argc
    curArg := arg
    expN := e.n
    expBytes := Fin.ofNat 37 (responseBytes e.n s.cfgRespFramed)
    txFrame := frame e.id (requestPayload e arg)
    fsmState := .requestSent }

/-- Acceptance of `EXEC(cmd, args)` in `IDLE`: clear (R160 b), check (R161), then latch (R162) or raise (R224). -/
def accept (cmd : Int) (args : List Int) (s : State) : State :=
  match presendCheck cmd args s.chanOpen with
  | .ok (e, arg) => latch e arg (clearTransaction s)
  | .error info => raise info (clearTransaction s)

/-- The write step (R163): one `TxWrite`, never repeated. -/
def writeStep (s : State) : State :=
  match txWrite s.txFrame s with
  | (true, t) => { t with fsmState := .awaitingResponse }
  | (false, t) => raise .writeFailed t

/-- The strict-mode checks on a complete response, its first three bytes, its checksum byte and the checksum of the bytes before it given,
in the order of R164: the first that fails, if one does. -/
def strictCheck (cmd : Byte) (n : FloatCount) (start echo len received computed : Byte) : Option Info :=
  if start ≠ Config.startByte then some (.badStart start)
  else if echo ≠ cmd then some (.badCmdEcho echo)
  else if len.toNat ≠ 4 * n.toNat then some (.badLengthField len)
  else if received ≠ computed then some (.checksum computed received)
  else none

/-- The decode step (R165) on the payload bytes `p`: `RESULT` gets the raw words, `RES_CNT` their count. -/
def decodeStep (p : List Byte) (s : State) : Host.Outcome State Fault Refusal :=
  match wordsOf? p with
  | some ws =>
    if ws.length = s.expN.toNat then
      .next { s with result := mergeResult ws s.result, resCnt := Fin.ofNat 9 s.expN.toNat, fsmState := .decoded }
    else .fault .inconsistentTransaction
  | none => .fault .inconsistentTransaction

/-- What the read step does with the bytes a read returned (R164): record them, then the first failing check or the decode. -/
def checkResponse (r : List Byte) (s : State) : Host.Outcome State Fault Refusal :=
  let t := { s with rxBuf := r, rxLen := Fin.ofNat 37 r.length }
  if r.length < s.expBytes.val then .next (raise (.shortRead s.expBytes.val r.length) t)
  else if s.cfgRespFramed then
    match s.curCmd, r with
    | none, _ => .fault .readsNoValue
    | some c, start :: echo :: len :: b :: rest =>
      match strictCheck c s.expN start echo len ((b :: rest).getLast (by simp)) (checksum r.dropLast) with
      | some info => .next (raise info t)
      | none => decodeStep ((r.drop 3).take (4 * s.expN.toNat)) t
    | some _, _ => .fault .inconsistentTransaction
  else decodeStep r t

/-- The read step (R164): one `RxRead` of `EXP_BYTES`, then the checks and the decode in the same event. -/
def readStep (s : State) : Host.Outcome State Fault Refusal :=
  if s.expBytes.val ≠ responseBytes s.expN s.cfgRespFramed then .fault .inconsistentTransaction
  else
    match rxRead s.expBytes.val s with
    | (none, t) => .next (raise .closed t)
    | (some r, t) => checkResponse r t

/-- The outcome of a decoded transaction (R166, first case): `ERR` is written only by a post-processing error. -/
def deliverDecoded (s : State) : Host.Outcome State Fault Refusal :=
  match s.curCmd, resultWords s.resCnt.val s.result with
  | some c, some ws =>
    match cmdEntry? c with
    | none => .fault .inconsistentTransaction
    | some e =>
      match post s.freeCtr e.post ws with
      | none => .fault .inconsistentTransaction
      | some (.ok v) => .next (finish (giveHost (.value v ws) { s with freeCtr := s.freeCtr + ws.length }))
      | some (.error x) =>
        .next (finish (giveHost (.err .nonFiniteIntegerError (.nonFinite x))
          { s with err := .nonFiniteIntegerError, freeCtr := s.freeCtr + ws.length }))
  | _, _ => .fault .readsNoValue

/-- The outcome of a failed transaction (R166, second case): `err(ERR, info)`. -/
def deliverFailed (s : State) : Host.Outcome State Fault Refusal :=
  match s.errInfo with
  | some info => .next (finish (giveHost (.err s.err info) s))
  | none => .fault .readsNoValue

/-- The block's own next step: the one `FSM_STATE` names (R21); in `IDLE` the block does nothing of its own (R7). -/
def ownStep (s : State) : Host.Outcome State Fault Refusal :=
  match s.fsmState with
  | .idle => .next s
  | .requestSent => .next (writeStep s)
  | .awaitingResponse => readStep s
  | .decoded => deliverDecoded s
  | .failed => deliverFailed s

end Sys2Proof.Machine
end

