-- ==== Sys2Proof/Machine/Commands.lean ====
section
/-! DEFINITION. `EXEC` and the 14 commands (R169-R183). Each is the acceptance of one transaction (R160-R162), held while another is in
progress; the write, read and delivery that follow are the block's own next steps (`ownStep`), and everything that tells one
command from another stands in `CMD_TABLE`. -/

namespace Sys2Proof.Machine

/-- `EXEC` (R160): any command number, assigned or not, in range or not. -/
def execExec (cmd : Int) (args : List Int) (s : State) : Host.Outcome State Fault Refusal :=
  present (Instr.ofExec cmd args) (accept cmd args) s

/-- `READ_QUAT` (R170): four floats, class REAL. -/
def execReadQuat (args : List Int) (s : State) : Host.Outcome State Fault Refusal :=
  present (.readQuat args) (accept 0x01 args) s

/-- `READ_RPY` (R171): three floats, class REAL. -/
def execReadRpy (args : List Int) (s : State) : Host.Outcome State Fault Refusal :=
  present (.readRpy args) (accept 0x02 args) s

/-- `READ_RPY_VAR` (R172): three floats, class REAL. -/
def execReadRpyVar (args : List Int) (s : State) : Host.Outcome State Fault Refusal :=
  present (.readRpyVar args) (accept 0x03 args) s

/-- `READ_ACC` (R173): three floats, class REAL. -/
def execReadAcc (args : List Int) (s : State) : Host.Outcome State Fault Refusal :=
  present (.readAcc args) (accept 0x05 args) s

/-- `READ_ACC_VAR` (R174): three floats, class REAL. -/
def execReadAccVar (args : List Int) (s : State) : Host.Outcome State Fault Refusal :=
  present (.readAccVar args) (accept 0x09 args) s

/-- `READ_GYRO` (R175): three floats, class REAL. -/
def execReadGyro (args : List Int) (s : State) : Host.Outcome State Fault Refusal :=
  present (.readGyro args) (accept 0x0B args) s

/-- `READ_GYRO_VAR` (R176): three floats, class REAL. -/
def execReadGyroVar (args : List Int) (s : State) : Host.Outcome State Fault Refusal :=
  present (.readGyroVar args) (accept 0x0F args) s

/-- `READ_MAG` (R177): three floats, class REAL. -/
def execReadMag (args : List Int) (s : State) : Host.Outcome State Fault Refusal :=
  present (.readMag args) (accept 0x11 args) s

/-- `GET_FILTER_GAIN` (R178): an indexed write of the dummy value, one float, class REAL. -/
def execGetFilterGain (args : List Int) (s : State) : Host.Outcome State Fault Refusal :=
  present (.getFilterGain args) (accept 0x1E args) s

/-- `SET_WORLD_FRAME_ID` (R179): an indexed write of the caller's word, not range-checked, one float, class INT. -/
def execSetWorldFrameId (args : List Int) (s : State) : Host.Outcome State Fault Refusal :=
  present (.setWorldFrameId args) (accept 0x1F args) s

/-- `GET_WORLD_FRAME_ID` (R180): an indexed write of the dummy value, one float, class INT. -/
def execGetWorldFrameId (args : List Int) (s : State) : Host.Outcome State Fault Refusal :=
  present (.getWorldFrameId args) (accept 0x20 args) s

/-- `READ_QUAT_RPY` (R181): eight floats, class REAL7: the eighth stays in `RESULT[7]`. -/
def execReadQuatRpy (args : List Int) (s : State) : Host.Outcome State Fault Refusal :=
  present (.readQuatRpy args) (accept 0x22 args) s

/-- `READ_ACC_GYRO` (R182): six floats, class REAL. -/
def execReadAccGyro (args : List Int) (s : State) : Host.Outcome State Fault Refusal :=
  present (.readAccGyro args) (accept 0x23 args) s

/-- `CLEAR_DATA_BUFFER` (R183): an indexed write of the dummy value, one float, class INT. -/
def execClearDataBuffer (args : List Int) (s : State) : Host.Outcome State Fault Refusal :=
  present (.clearDataBuffer args) (accept 0x27 args) s

end Sys2Proof.Machine
end

