-- ==== Sys2Proof/Machine/Dispatch.lean ====
section
/-! DEFINITION. `exec`: one arm per constructor of `Instr`, each one direct call of its meaning. -/

namespace Sys2Proof.Machine

def exec (i : Instr) (s : State) : Host.Outcome State Fault Refusal :=
  match i with
  | .readQuat args => Sys2Proof.Machine.execReadQuat args s
  | .readRpy args => Sys2Proof.Machine.execReadRpy args s
  | .readRpyVar args => Sys2Proof.Machine.execReadRpyVar args s
  | .readAcc args => Sys2Proof.Machine.execReadAcc args s
  | .readAccVar args => Sys2Proof.Machine.execReadAccVar args s
  | .readGyro args => Sys2Proof.Machine.execReadGyro args s
  | .readGyroVar args => Sys2Proof.Machine.execReadGyroVar args s
  | .readMag args => Sys2Proof.Machine.execReadMag args s
  | .getFilterGain args => Sys2Proof.Machine.execGetFilterGain args s
  | .setWorldFrameId args => Sys2Proof.Machine.execSetWorldFrameId args s
  | .getWorldFrameId args => Sys2Proof.Machine.execGetWorldFrameId args s
  | .readQuatRpy args => Sys2Proof.Machine.execReadQuatRpy args s
  | .readAccGyro args => Sys2Proof.Machine.execReadAccGyro args s
  | .clearDataBuffer args => Sys2Proof.Machine.execClearDataBuffer args s
  | .encode cmd payload => Sys2Proof.Machine.execEncode cmd payload s
  | .encodeNp cmd => Sys2Proof.Machine.execEncodeNp cmd s
  | .decodeFloats raw count => Sys2Proof.Machine.execDecodeFloats raw count s
  | .decodeFrame frame => Sys2Proof.Machine.execDecodeFrame frame s
  | .exec cmd args => Sys2Proof.Machine.execExec cmd args s
  | .openChan respFramed timeout => Sys2Proof.Machine.execOpen respFramed timeout s
  | .closeChan => Sys2Proof.Machine.execClose s

end Sys2Proof.Machine
end

