-- ==== Sys2Proof/Machine/Sched.lean ====
section
/-! DEFINITION. Who moves next: the schedule that plain data in State decides (R6, R7; log 4). -/

namespace Sys2Proof.Machine

/-- The next event of the machine, with the state it starts from. -/
inductive Event where
  /-- An operation runs. -/
  | run (i : Instr) (s : State)
  /-- The port refuses what the host presents (U9). -/
  | refuse (e : PortError)
  /-- The block takes its own next step. -/
  | own (s : State)
  /-- An event that runs no operation, with the state it leaves: one from outside the block, or an operation that joins the held ones. -/
  | outside (s : State)
  deriving DecidableEq, Repr

/-- The operations that are accepted only in `IDLE` and wait otherwise: `EXEC` and the commands (R160 a), `OPEN` (R167), `CLOSE` (R168). The codec
operations never wait (R130). -/
def opWaits : Instr → Bool
  | .readQuat _ => true
  | .readRpy _ => true
  | .readRpyVar _ => true
  | .readAcc _ => true
  | .readAccVar _ => true
  | .readGyro _ => true
  | .readGyroVar _ => true
  | .readMag _ => true
  | .getFilterGain _ => true
  | .setWorldFrameId _ => true
  | .getWorldFrameId _ => true
  | .readQuatRpy _ => true
  | .readAccGyro _ => true
  | .clearDataBuffer _ => true
  | .encode _ _ => false
  | .encodeNp _ => false
  | .decodeFloats _ _ => false
  | .decodeFrame _ => false
  | .exec _ _ => true
  | .openChan _ _ => true
  | .closeChan => true

/-- What becomes of an operation the host presents: it runs; but in `IDLE` with operations still held, one that can wait joins them, so that it
does not overtake (the order is the model's, log 5). -/
def presented (i : Instr) (s : State) : Event :=
  match s.fsmState, s.held, opWaits i with
  | .idle, _ :: _, true => .outside (hold i s)
  | _, _, _ => .run i s

/-- The block's own move: in `IDLE` the port takes the oldest held operation (R160 a); else the block takes the step `FSM_STATE` names. -/
def ownMove (s : State) : Event :=
  match s.fsmState, s.held with
  | .idle, i :: is => .run i { s with held := is }
  | _, _ => .own s

/-- What one input does. An event of the environment or a reset may come in any state, between any two other events (R64, R66, R260). -/
def eventOf (i : Input) (s : State) : Event :=
  match i with
  | .op r =>
    match decodeRequest r with
    | .ok i => presented i s
    | .error e => .refuse e
  | .block => ownMove s
  | .arrive bs => .outside (envArrive bs s)
  | .chanClosed => .outside (envClose s)
  | .reset kept => .outside (applyReset kept s)

/-- The next event: the next input, whoever makes it; with no input, the block's own move. -/
def nextEvent (s : State) : Event :=
  match s.inputs with
  | i :: is => eventOf i { s with inputs := is }
  | [] => ownMove s

/-- The refusal a turned-down request stops with (R104, U9). -/
def refusalOf : PortError → Refusal
  | .illegalOpsel => .illegalOpsel

/-- The state with a request placed where `step` takes its next operation: first of the inputs, no operation held. -/
def placeRequest (r : HostRequest) (s : State) : State := { s with held := [], inputs := .op r :: s.inputs }

end Sys2Proof.Machine
end

