-- ==== Sys2Proof/Machine/Step.lean ====
section
/-! DEFINITION. One step: the next event, whoever makes it. -/

namespace Sys2Proof.Machine

/-- One event of the machine (R6). -/
def step (s : State) : Host.Outcome State Fault Refusal :=
  match nextEvent s with
  | .run i t => exec i t
  | .refuse e => .refused (refusalOf e)
  | .own t => ownStep t
  | .outside t => .next t

/-- `s` with the operation of a word of the opcode table presented next on the host port (log 3, log 19). -/
def State.withFetchWord (s : State) (nbits w : Nat) : State := placeRequest (tableRequest nbits w) s

end Sys2Proof.Machine
end

