-- ==== Sys2Proof/Machine/HostText.lean ====
section
/-! DEFINITION. The text of host programs (R107) with its pseudo-operations (R108): one line becomes one host-port request, and a
program becomes the schedule of inputs that runs it. -/

namespace Sys2Proof.Machine

/-- The pieces of a line: words, brackets and commas. -/
inductive Tok where
  | word (cs : List Char)
  | lbr
  | rbr
  | comma
  deriving DecidableEq, Repr

/-- Why a line is no line of R107. -/
inductive TextError where
  /-- A number, byte or literal that is none. -/
  | badNumber
  /-- A name that is neither an operation nor a command mnemonic (R100, R104). -/
  | unknownName
  /-- Operands that are not those of the operation. -/
  | badOperands
  deriving DecidableEq, Repr

/-- One line with something on it: an operation, or the environment's answer to an `RxRead`. -/
inductive Line where
  | op (r : HostRequest)
  | rx (bs : List Byte) (isClosed : Bool)
  deriving DecidableEq, Repr

/-- The word collected so far, its characters in reverse, put before the pieces that follow it. -/
def flushWord (acc : List Char) (ts : List Tok) : List Tok :=
  if acc.isEmpty then ts else .word acc.reverse :: ts

/-- Cuts a line into pieces; a semicolon starts a comment (R107). -/
def lexLine : List Char → List Char → List Tok
  | [], acc => flushWord acc []
  | c :: cs, acc =>
    if c = ';' then flushWord acc []
    else if c = ' ' || c = '\t' || c = '\r' then flushWord acc (lexLine cs [])
    else if c = '[' then flushWord acc (.lbr :: lexLine cs [])
    else if c = ']' then flushWord acc (.rbr :: lexLine cs [])
    else if c = ',' then flushWord acc (.comma :: lexLine cs [])
    else lexLine cs (c :: acc)

/-- The value of a hexadecimal digit, of either case (DESIGN CHOICE, safe, log 31). -/
def hexDigit? (c : Char) : Option Nat :=
  if '0' ≤ c && c ≤ '9' then some (c.toNat - 48)
  else if 'A' ≤ c && c ≤ 'F' then some (c.toNat - 55)
  else if 'a' ≤ c && c ≤ 'f' then some (c.toNat - 87)
  else none

/-- The value of digits in a base, after those already read. -/
def digits? (base : Nat) : List Char → Nat → Option Nat
  | [], acc => some acc
  | c :: cs, acc =>
    match hexDigit? c with
    | some d => if d < base then digits? base cs (acc * base + d) else none
    | none => none

/-- At least one digit in a base. -/
def numeral? (base : Nat) (cs : List Char) : Option Nat := if cs.isEmpty then none else digits? base cs 0

/-- A number: `0x` and hexadecimal digits (R107), as many as are written, or decimal digits;
R107 gives a number no sign, so none is read (DESIGN CHOICE, safe, log 31). -/
def number? : List Char → Option Nat
  | '0' :: 'x' :: cs => numeral? 16 cs
  | cs => numeral? 10 cs

/-- The word of a binary32 literal without its sign: the binary32 value nearest to the decimal, ties to even (R107). R107
gives one example of a literal. The model reads decimal digits, then perhaps a point and more digits, with no exponent (DESIGN CHOICE, safe,
log 31). -/
def literal? (neg : Bool) (cs : List Char) : Option Nat :=
  let whole := cs.takeWhile fun c => c ≠ '.'
  let part := (cs.dropWhile fun c => c ≠ '.').drop 1
  match numeral? 10 whole, digits? 10 part 0 with
  | some w, some p => some (pack32 neg (nearest32 (w * 10 ^ part.length + p) (10 ^ part.length))).toNat
  | _, _ => none

/-- A word operand: `0xNNNNNNNN`, or a binary32 literal (R107). Any number of hexadecimal digits is read, a value above 2^32-1 being a malformed
argument (R161), and a literal may start with a minus sign (DESIGN CHOICE, safe, log 31). -/
def wordOperand? : List Char → Option Nat
  | '0' :: 'x' :: cs => numeral? 16 cs
  | '-' :: cs => literal? true cs
  | cs => literal? false cs

/-- A timeout operand: a number, or `T` for the parameter `T_TIMEOUT` (R8). R107 gives it no written form (DESIGN CHOICE, safe, log 31). -/
def timeoutOperand? : List Char → Option Nat
  | ['T'] => some Config.tTimeout
  | cs => number? cs

/-- The command id of a mnemonic (R100). -/
def mnemonic? (cs : List Char) : Option Nat :=
  match String.ofList cs with
  | "READ_QUAT" => some 0x01
  | "READ_RPY" => some 0x02
  | "READ_RPY_VAR" => some 0x03
  | "READ_ACC" => some 0x05
  | "READ_ACC_VAR" => some 0x09
  | "READ_GYRO" => some 0x0B
  | "READ_GYRO_VAR" => some 0x0F
  | "READ_MAG" => some 0x11
  | "GET_FILTER_GAIN" => some 0x1E
  | "SET_WORLD_FRAME_ID" => some 0x1F
  | "GET_WORLD_FRAME_ID" => some 0x20
  | "READ_QUAT_RPY" => some 0x22
  | "READ_ACC_GYRO" => some 0x23
  | "CLEAR_DATA_BUFFER" => some 0x27
  | _ => none

/-- The command operand of `EXEC`: a mnemonic or a number (R107). -/
def commandOperand? (cs : List Char) : Option Nat := (mnemonic? cs).or (number? cs)

/-- Hexadecimal bytes up to the closing bracket, which ends the line's operands or comes before more of them. R10 writes a byte as a pair of digits;
R107 does not say what another number of digits is. The model reads one numeral of any length as one element (DESIGN CHOICE, safe, log 31): `F` is
0x0F, and `1FF` is 511, an element outside 0..255 that the operation calls malformed (R105). -/
def bracketBytes? : List Tok → Option (List Int × List Tok)
  | .rbr :: ts => some ([], ts)
  | .word cs :: ts =>
    match numeral? 16 cs, bracketBytes? ts with
    | some b, some (bs, rest) => some ((b : Int) :: bs, rest)
    | _, _ => none
  | _ => none

/-- The bytes of an `rx:` line, and whether `(closed)` stands after them. R107 lets `(short)` stand there and gives it no effect of its
own. The model drops it (DESIGN CHOICE, unsafe, log 23): a line so marked is read like one without the mark, so its bytes, with those already
pending, still make a complete read where they suffice.
A byte is a numeral of any length up to 0xFF, and a greater one is refused (DESIGN CHOICE, safe, log 31). -/
def rxBytes? : List Tok → Option (List Byte × Bool)
  | [] => some ([], false)
  | [.word ['(', 's', 'h', 'o', 'r', 't', ')']] => some ([], false)
  | [.word ['(', 'c', 'l', 'o', 's', 'e', 'd', ')']] => some ([], true)
  | .word cs :: ts =>
    match (numeral? 16 cs).bind fun n => toByte? n, rxBytes? ts with
    | some b, some (bs, cl) => some (b :: bs, cl)
    | _, _ => none
  | _ => none

/-- A result, or the named error. -/
def orError {α : Type} (e : TextError) : Option α → Except TextError α
  | some a => .ok a
  | none => .error e

/-- One line's pieces as a line: an operation of R107, a pseudo-operation of R108, or an `rx:` line. R108 lets a bare word
follow `SET_WORLD_FRAME_ID` alone. The model reads any mnemonic with a word after it as `EXEC` of that command with that argument (DESIGN CHOICE,
safe, log 31): for every other command R161 then answers `EncodingError(ARITY)`. -/
def parseToks (name : List Char) (operands : List Tok) : Except TextError Line :=
  match String.ofList name, operands with
  | "rx:", ts => (orError .badNumber (rxBytes? ts)).map fun p => .rx p.1 p.2
  | "ENCODE", .word c :: .comma :: .lbr :: ts =>
    match number? c, bracketBytes? ts with
    | some cmd, some (bs, []) => .ok (.op (encodeRequest (.encode cmd bs)))
    | _, _ => .error .badOperands
  | "ENCODE_NP", [.word c] => (orError .badNumber (number? c)).map fun cmd => .op (encodeRequest (.encodeNp cmd))
  | "DECODE_FLOATS", .lbr :: ts =>
    match bracketBytes? ts with
    | some (bs, [.comma, .word c]) =>
      (orError .badNumber (number? c)).map fun count => .op (encodeRequest (.decodeFloats bs count))
    | _ => .error .badOperands
  | "DECODE_FRAME", .lbr :: ts =>
    match bracketBytes? ts with
    | some (bs, []) => .ok (.op (encodeRequest (.decodeFrame bs)))
    | _ => .error .badOperands
  | "EXEC", [.word c] =>
    (orError .unknownName (commandOperand? c)).map fun cmd => .op (encodeRequest (.exec cmd []))
  | "EXEC", [.word c, .comma, .word w] =>
    match commandOperand? c, wordOperand? w with
    | some cmd, some a => .ok (.op (encodeRequest (.exec cmd [a])))
    | _, _ => .error .badOperands
  | "OPEN", [.word r, .comma, .word t] =>
    match number? r, timeoutOperand? t with
    | some framed, some timeout => .ok (.op (encodeRequest (.openChan framed timeout)))
    | _, _ => .error .badOperands
  | "CLOSE", [] => .ok (.op (encodeRequest .closeChan))
  | _, [] => (orError .unknownName (mnemonic? name)).map fun cmd => .op (encodeRequest (.exec cmd []))
  | _, [.word w] =>
    match mnemonic? name, wordOperand? w with
    | some cmd, some a => .ok (.op (encodeRequest (.exec cmd [a])))
    | _, _ => .error .badOperands
  | _, _ => .error .badOperands

/-- One line of a host program; nothing for a line with no operation on it (R107). -/
def parseLine (cs : List Char) : Except TextError (Option Line) :=
  match lexLine cs [] with
  | [] => .ok none
  | .word name :: operands => (parseToks name operands).map some
  | _ => .error .unknownName

/-- The lines of a host program (R107). -/
def parseProgram : List (List Char) → Except TextError (List Line)
  | [] => .ok []
  | cs :: rest =>
    match parseLine cs, parseProgram rest with
    | .ok (some l), .ok ls => .ok (l :: ls)
    | .ok none, .ok ls => .ok ls
    | .error e, _ => .error e
    | _, .error e => .error e

/-- The inputs that run a program and the environment's answers its `rx:` lines give. After an `EXEC` the host is blocked until the transaction's
three further events are over (R160); the first `rx:` line after it arrives before its read, and any other when it stands. The spec does not say
which answer the read of an `EXEC` without an `rx:` line of its own gets. The model's choice (DESIGN CHOICE, unsafe, log 23): no answer is listed
for it, so its read takes the next one in the list, be it a later `EXEC`'s, or a free value where none is left; and the answer of an `rx:` line
whose `EXEC` makes no read stays for the next read. `(closed)` counts only on an `rx:` line directly after an `EXEC`: on a second `rx:` line, or one
after another operation, R107 gives it no read to answer, and the model drops it and lets that line's bytes arrive (DESIGN CHOICE, unsafe, log 23). -/
def schedule : List Line → List Input × List RxDraw
  | [] => ([], [])
  | .op r :: .rx bs cl :: ls =>
    if r.opsel = 4#3 then
      ([.op r, .arrive bs, .block, .block, .block] ++ (schedule ls).1,
        (if cl then RxDraw.closed else RxDraw.bytes 36) :: (schedule ls).2)
    else ([.op r, .arrive bs] ++ (schedule ls).1, (schedule ls).2)
  | .op r :: ls =>
    if r.opsel = 4#3 then ([.op r, .block, .block, .block] ++ (schedule ls).1, (schedule ls).2)
    else (.op r :: (schedule ls).1, (schedule ls).2)
  | .rx bs _ :: ls => (.arrive bs :: (schedule ls).1, (schedule ls).2)

/-- `s` with a host program's schedule after what it already holds (log 23). -/
def loadProgram (lines : List (List Char)) (s : State) : Except TextError State :=
  (parseProgram lines).map fun ls =>
    { s with inputs := s.inputs ++ (schedule ls).1, rxDraws := s.rxDraws ++ (schedule ls).2 }

end Sys2Proof.Machine
end

