-- ==== Sys2Proof/Safety.lean ====
section
/-! DEFINITION. What the statements speak of: the table of command constructors, the edges of the state machine, the invariant of the
block's registers, and the length of a response. -/

namespace Sys2Proof.Machine

/-- The 14 command constructors beside their ids (R100). -/
def commandForms : List (Byte × (List Int → Instr)) :=
  [ (0x01#8, .readQuat), (0x02#8, .readRpy), (0x03#8, .readRpyVar), (0x05#8, .readAcc), (0x09#8, .readAccVar),
    (0x0B#8, .readGyro), (0x0F#8, .readGyroVar), (0x11#8, .readMag), (0x1E#8, .getFilterGain),
    (0x1F#8, .setWorldFrameId), (0x20#8, .getWorldFrameId), (0x22#8, .readQuatRpy), (0x23#8, .readAccGyro),
    (0x27#8, .clearDataBuffer) ]

/-- The argument word of a well-formed argument list: none, or the one word (R161, R162). -/
def argWord (args : List Int) : Option Word := args.head?.map (BitVec.ofInt 32)

/-- The 13 operations whose request frame is fixed, beside that frame (R101). -/
def fixedRequests : List (Instr × List Byte) :=
  [ (.readQuat [], [0xBB#8, 0x01#8, 0x00#8, 0xBC#8]),
    (.readRpy [], [0xBB#8, 0x02#8, 0x00#8, 0xBD#8]),
    (.readRpyVar [], [0xBB#8, 0x03#8, 0x00#8, 0xBE#8]),
    (.readAcc [], [0xBB#8, 0x05#8, 0x00#8, 0xC0#8]),
    (.readAccVar [], [0xBB#8, 0x09#8, 0x00#8, 0xC4#8]),
    (.readGyro [], [0xBB#8, 0x0B#8, 0x00#8, 0xC6#8]),
    (.readGyroVar [], [0xBB#8, 0x0F#8, 0x00#8, 0xCA#8]),
    (.readMag [], [0xBB#8, 0x11#8, 0x00#8, 0xCC#8]),
    (.readQuatRpy [], [0xBB#8, 0x22#8, 0x00#8, 0xDD#8]),
    (.readAccGyro [], [0xBB#8, 0x23#8, 0x00#8, 0xDE#8]),
    (.getFilterGain [], [0xBB#8, 0x1E#8, 0x05#8, 0x00#8, 0x00#8, 0x00#8, 0x00#8, 0x00#8, 0xDE#8]),
    (.getWorldFrameId [], [0xBB#8, 0x20#8, 0x05#8, 0x00#8, 0x00#8, 0x00#8, 0x00#8, 0x00#8, 0xE0#8]),
    (.clearDataBuffer [], [0xBB#8, 0x27#8, 0x05#8, 0x00#8, 0x00#8, 0x00#8, 0x00#8, 0x00#8, 0xE7#8]) ]

/-- The state a pre-send error leaves: the per-transaction state cleared, the error raised, nothing latched and nothing sent (R160 b,
R161, R224). -/
def presendFailed (info : Info) (s : State) : State :=
  { s with
    result := Vector.replicate 8 none
    resCnt := 0
    rxBuf := []
    rxLen := 0
    txFrame := []
    err := errCodeOf info
    errInfo := some info
    fsmState := .failed }

/-- `s` with one more result handed to the host and nothing else changed. -/
def withResult (s : State) (r : HostResult) : State := { s with hostOut := s.hostOut ++ [r] }

/-- A response as it stands on the line: the payload bytes themselves, or the frame around them that echoes the command (R96, R97). -/
def responseOnLine (framed : Bool) (cmd : Byte) (payload : List Byte) : List Byte :=
  if framed then
    [0xBB#8, cmd, BitVec.ofNat 8 payload.length] ++ payload ++
      [BitVec.ofNat 8 ((0xBB + cmd.toNat + payload.length + (payload.map BitVec.toNat).sum) % 256)]
  else payload

/-- The outcome of a decoded response by its class (R203): what the host receives, and `ERR`. -/
def outcomeOf (post : PostClass) (fresh : Nat) (ws : List Word) : HostResult × ErrCode :=
  match post with
  | .real => (.value (.reals (round6All fresh ws)) ws, .none)
  | .real7 => (.value (.reals (round6All fresh (ws.take 7))) ws, .none)
  | .int =>
    match trunc (round6 fresh (ws.headD 0#32)) with
    | some z => (.value (.int z) ws, .none)
    | none => (.err .nonFiniteIntegerError (.nonFinite (round6 fresh (ws.headD 0#32))), .nonFiniteIntegerError)

/-- The transaction registers agree with the latched command `c` (R24-R26). -/
def Latched (s : State) (c : Byte) (e : CmdEntry) : Prop :=
  s.curCmd = some c ∧ cmdEntry? c = some e ∧ s.curArgc = e.argc ∧ s.expN = e.n ∧
    s.expBytes.val = responseBytes e.n s.cfgRespFramed

/-- What each state of the state machine means for the transaction registers (R23, R27-R32). -/
def PhaseOk (s : State) : Prop :=
  match s.fsmState with
  | .idle => s.txFrame = [] ∧ s.rxBuf = [] ∧ s.errInfo = none
  | .requestSent => ∃ c e, Latched s c e ∧ s.txFrame = frame c (requestPayload e s.curArg) ∧ s.rxBuf = [] ∧
      s.resCnt = 0 ∧ s.err = .none ∧ s.errInfo = none
  | .awaitingResponse => ∃ c e, Latched s c e ∧ s.txFrame = frame c (requestPayload e s.curArg) ∧ s.rxBuf = [] ∧
      s.resCnt = 0 ∧ s.err = .none ∧ s.errInfo = none
  | .decoded => ∃ c e, Latched s c e ∧ s.rxBuf.length = s.expBytes.val ∧ s.resCnt.val = e.n.toNat ∧
      s.err = .none ∧ s.errInfo = none
  | .failed => s.resCnt = 0 ∧ ∃ info, s.errInfo = some info ∧ s.err = errCodeOf info

/-- The invariant of the block's registers. Every state of a run from reset has it; the names say what each part states. -/
structure State.Inv (s : State) : Prop where
  /-- `CUR_CMD` is `⊥` or an id of `CMD_TABLE` (R24). -/
  curCmdAssigned : ∀ c, s.curCmd = some c → (cmdEntry? c).isSome
  /-- `CUR_ARG` holds a word exactly when `CUR_ARGC = 1` (R25). -/
  curArgPresent : s.curArg.isSome ↔ s.curArgc = 1
  /-- `EXP_BYTES` is `4n`, or `4n + 4` for a framed response (R26). -/
  expBytesLegal : s.expBytes.val = responseBytes s.expN false ∨ s.expBytes.val = responseBytes s.expN true
  /-- `TX_FRAME` has at most 9 bytes (R27). -/
  txFrameLen : s.txFrame.length ≤ 9
  /-- `RX_LEN` is the length of `RX_BUF` (R28). -/
  rxLenEq : s.rxLen.val = s.rxBuf.length
  /-- `RX_LEN <= EXP_BYTES` (R28). -/
  rxLenLe : s.rxBuf.length ≤ s.expBytes.val
  /-- The valid `RESULT` registers are the first `RES_CNT` (R29-R31). -/
  resultValid : ∀ i : Fin 8, s.result[i].isSome ↔ i.val < s.resCnt.val
  /-- The registers agree with `FSM_STATE`. -/
  phaseOk : PhaseOk s

/-- The edges of the state machine, staying put included: `IDLE → REQUEST_SENT → AWAITING_RESPONSE → (DECODED | FAILED) → IDLE`, the raise of
each step (R224), the pre-send path `IDLE → FAILED` (R161), and reset from anywhere (R260). -/
def fsmEdge : FsmState → FsmState → Bool
  | .idle, .requestSent => true
  | .idle, .failed => true
  | .requestSent, .awaitingResponse => true
  | .requestSent, .failed => true
  | .awaitingResponse, .decoded => true
  | .awaitingResponse, .failed => true
  | a, b => a == b || b == .idle

/-- A run is safe when it never stops with a fault: no step from `s` raises one. -/
def NoFault (s : State) : Prop := ∀ f, step s ≠ .fault f

end Sys2Proof.Machine
end

