-- ==== Sys2Proof/Certificates/Slice0/Obligations.lean ====
section
/-! DEFINITION. The statements for the provers, each citing the rule of spec/ it formalises. Result statements are also completion
statements: their conclusion is the next state, for every state and operands that meet hypotheses on the state and operands alone. -/

open Sys2Proof Sys2Proof.Machine

/-! ## Host port, decoding, stepping -/

/-- R104: `OPSEL` selects the operation, 0 to 6, and reads that operation's lanes; 4 is `EXEC`, whose assigned ids are the commands (R100);
7 is illegal. Words of the request encodings, written out. -/
def Obligations.WordsDecodeToTheirOperations : Prop :=
  decodeRequest { opsel := 0b000#3, cmd := 0x1F, bytes := [0x7F] } = .ok (.encode 0x1F [0x7F]) ∧
  decodeRequest { opsel := 0b001#3, cmd := 0x02 } = .ok (.encodeNp 0x02) ∧
  decodeRequest { opsel := 0b010#3, bytes := [0, 0, 0xC0, 0x3F], count := 1 } = .ok (.decodeFloats [0, 0, 0xC0, 0x3F] 1) ∧
  decodeRequest { opsel := 0b011#3, bytes := [0xBB, 0, 0, 0xBB] } = .ok (.decodeFrame [0xBB, 0, 0, 0xBB]) ∧
  decodeRequest { opsel := 0b100#3, cmd := 0x04 } = .ok (.exec 0x04 []) ∧
  decodeRequest { opsel := 0b100#3, cmd := 0x1F, args := [0x3F800000] } = .ok (.setWorldFrameId [0x3F800000]) ∧
  decodeRequest { opsel := 0b101#3, respFramed := 1, timeout := 9 } = .ok (.openChan 1 9) ∧
  decodeRequest { opsel := 0b110#3 } = .ok .closeChan ∧
  decodeFrameBytes [0b10111011#8, 0b00010001#8, 0b00000000#8, 0b11001100#8] = .ok (.readMag []) ∧
  decodeFrameBytes [0b10111011#8, 0b00011111#8, 0b00000101#8, 0#8, 0#8, 0#8, 0x80#8, 0x3F#8, 0x9E#8] =
    .ok (.setWorldFrameId [0x3F800000])

/-- R104: when the host presents a request that decodes to `i`, a step is `exec i` on the state with that request taken from the inputs: in every
state for a codec operation (R130), and for the others unless the block is `IDLE` with operations still held. Those come first (R160 a; that
order, and that `i` joins them at the end, are the model's, log 5): the block's own move in `IDLE` runs the oldest of them. With none held, and
outside `IDLE`, its move is its own step. Who moves is what the inputs say (log 4). -/
def Obligations.StepRunsThePresentedOperation : Prop :=
  (∀ (s : State) (r : HostRequest) (rest : List Input) (i : Instr), s.inputs = .op r :: rest → decodeRequest r = .ok i →
    ((s.fsmState ≠ .idle ∨ s.held = [] ∨ opWaits i = false) → step s = exec i { s with inputs := rest }) ∧
    (s.fsmState = .idle → s.held ≠ [] → opWaits i = true →
      step s = .next { s with inputs := rest, held := s.held ++ [i] })) ∧
  (∀ (s : State) (rest : List Input), s.inputs = .block :: rest ∨ (s.inputs = [] ∧ rest = []) →
    (∀ i is, s.fsmState = .idle → s.held = i :: is → step s = exec i { s with inputs := rest, held := is }) ∧
    (s.fsmState ≠ .idle ∨ s.held = [] → step s = ownStep { s with inputs := rest }))

/-- R104, U9: the port refuses `OPSEL = 7` in every state, with no result and no next state, and a step refuses nothing else. -/
def Obligations.OnlySelectorSevenIsRefused : Prop :=
  (∀ (s : State) (r : HostRequest) (rest : List Input), s.inputs = .op r :: rest → r.opsel = 7#3 →
    step s = .refused .illegalOpsel) ∧
  (∀ (s : State) (x : Refusal), step s = .refused x →
    x = .illegalOpsel ∧ ∃ r rest, s.inputs = .op r :: rest ∧ r.opsel = 7#3)

/-- R108, R169: `EXEC` with an assigned id is that command: `readQuat`, `readRpy`, ..., `clearDataBuffer`. -/
def Obligations.ExecOfAnAssignedIdIsTheCommand : Prop :=
  ∀ p ∈ commandForms, ∀ (args : List Int) (s : State), exec (.exec p.1.toNat args) s = exec (p.2 args) s

/-- R100, R102: `CMD_TABLE` holds the 14 listed entries (id, shape, argc, n, post), and the 242 other ids are unassigned. -/
def Obligations.CommandTableHoldsExactlyTheListedIds : Prop :=
  (cmdRows.map fun e => (e.id, e.shape, e.argc.val, e.n.toNat, e.post)) =
    [(0x01#8, .np, 0, 4, .real), (0x02#8, .np, 0, 3, .real), (0x03#8, .np, 0, 3, .real), (0x05#8, .np, 0, 3, .real),
      (0x09#8, .np, 0, 3, .real), (0x0B#8, .np, 0, 3, .real), (0x0F#8, .np, 0, 3, .real), (0x11#8, .np, 0, 3, .real),
      (0x1E#8, .iw, 0, 1, .real), (0x1F#8, .iw, 1, 1, .int), (0x20#8, .iw, 0, 1, .int), (0x22#8, .np, 0, 8, .real7),
      (0x23#8, .np, 0, 6, .real), (0x27#8, .iw, 0, 1, .int)] ∧
  (∀ c : Byte, (cmdEntry? c).isSome ↔ c ∈ [0x01#8, 0x02#8, 0x03#8, 0x05#8, 0x09#8, 0x0B#8, 0x0F#8, 0x11#8, 0x1E#8, 0x1F#8,
    0x20#8, 0x22#8, 0x23#8, 0x27#8]) ∧
  ((List.range 256).filter fun n => (cmdEntry? (BitVec.ofNat 8 n)).isNone).length = 242

/-- R104, R108: driving any operation onto the port and reading it back gives that operation, `EXEC` of an assigned id as its command, and two
operations with the same request are the same operation. The operand lanes are the model's (log 1), and so is the one name of an `EXEC` of an
assigned id (log 2). -/
def Obligations.PortRequestDeterminesTheOperation : Prop :=
  (∀ i : Instr, decodeRequest (encodeRequest i) = .ok i.canon) ∧
  (∀ i j : Instr, encodeRequest i = encodeRequest j → i.canon = j.canon)

/-! ## Packing and checksum -/

/-- R12: `le32` gives the four bytes least significant first, `from_le32` joins them, and the two are inverses. -/
def Obligations.LittleEndianPackingIsInvertible : Prop :=
  (∀ w : Word, (le32 w).map BitVec.toNat =
    [w.toNat % 256, w.toNat / 256 % 256, w.toNat / 65536 % 256, w.toNat / 16777216 % 256]) ∧
  (∀ b0 b1 b2 b3 : Byte, (fromLe32 b0 b1 b2 b3).toNat =
    b0.toNat + 256 * b1.toNat + 65536 * b2.toNat + 16777216 * b3.toNat) ∧
  (∀ (w : Word) (b0 b1 b2 b3 : Byte), le32 w = [b0, b1, b2, b3] ↔ fromLe32 b0 b1 b2 b3 = w)

/-- R140: the checksum is the sum of the bytes mod 256, and of a frame it covers every byte before the checksum byte. -/
def Obligations.ChecksumIsTheSumModulo256 : Prop :=
  (∀ s : List Byte, (checksum s).toNat = (s.map BitVec.toNat).sum % 256) ∧
  (∀ (s t : List Byte), s.Perm t → checksum s = checksum t) ∧
  (∀ (cmd : Byte) (p : List Byte), (frame cmd p).getLast? = some (checksum (frame cmd p).dropLast))

/-- R141: the result is in 0..255 and wraps; order does not matter; concatenation adds; one changed byte is always seen; two changes that
cancel are not. -/
def Obligations.ChecksumObeysItsArithmeticLaws : Prop :=
  (∀ s : List Byte, (checksum s).toNat ≤ 255 ∧ (checksum s).toNat = (s.map BitVec.toNat).sum % 256) ∧
  (∀ (s t : List Byte), s.Perm t → checksum s = checksum t) ∧
  (∀ s t : List Byte, checksum (s ++ t) = checksum s + checksum t) ∧
  (∀ (s t : List Byte) (a b : Byte), checksum (s ++ a :: t) = checksum (s ++ b :: t) ↔ a = b) ∧
  (∀ (s t u : List Byte) (a b d : Byte), checksum (s ++ (a + d) :: t ++ (b - d) :: u) = checksum (s ++ a :: t ++ b :: u))

/-! ## Codec operations -/

/-- R130: each codec operation hands one result to the host that depends on its operands alone, in every state of the state machine and whatever
the channel, and changes nothing else; and the frame a latched transaction sends is `ENCODE`'s (R162). -/
def Obligations.CodecOperationsArePure : Prop :=
  (∀ i : Instr, (∃ c p, i = .encode c p) ∨ (∃ c, i = .encodeNp c) ∨ (∃ r n, i = .decodeFloats r n) ∨ (∃ f, i = .decodeFrame f) →
    ∃ r : HostResult, ∀ s : State, exec i s = .next { s with hostOut := s.hostOut ++ [r] }) ∧
  (∀ (e : CmdEntry) (arg : Option Word) (s : State),
    codecEncode e.id.toNat (byteArgs (requestPayload e arg)) = .ok (latch e arg s).txFrame)

/-- R142: `ENCODE` in full: a malformed operand (above its range or below 0), a payload of more than 255 bytes, or the frame. -/
def Obligations.EncodeBuildsTheFrameOrRefuses : Prop :=
  ∀ (cmd : Int) (payload : List Int) (s : State),
    ((cmd < 0 ∨ 256 ≤ cmd ∨ ∃ b ∈ payload, b < 0 ∨ 256 ≤ b) →
      exec (.encode cmd payload) s = .next (withResult s (.err .encodingError .malformedArg))) ∧
    (0 ≤ cmd → cmd < 256 → (∀ b ∈ payload, 0 ≤ b ∧ b < 256) → 255 < payload.length →
      exec (.encode cmd payload) s = .next (withResult s (.err .encodingError (.payloadTooLong payload.length)))) ∧
    (0 ≤ cmd → cmd < 256 → (∀ b ∈ payload, 0 ≤ b ∧ b < 256) → payload.length ≤ 255 →
      exec (.encode cmd payload) s = .next (withResult s (.frame (
        [0xBB#8, BitVec.ofInt 8 cmd, BitVec.ofNat 8 payload.length] ++ payload.map (BitVec.ofInt 8) ++
          [BitVec.ofInt 8 ((0xBB + cmd + payload.length + payload.sum) % 256)]))))

/-- R143: `ENCODE_NP(cmd)` is `ENCODE(cmd, [])`, the frame `[0xBB, cmd, 0x00, (0xBB + cmd) mod 256]`, or a malformed operand (above 255 or
below 0). -/
def Obligations.EncodeNpIsEncodeOfAnEmptyPayload : Prop :=
  ∀ (cmd : Int) (s : State),
    exec (.encodeNp cmd) s = exec (.encode cmd []) s ∧
    (0 ≤ cmd → cmd < 256 → exec (.encodeNp cmd) s = .next (withResult s (.frame
      [0xBB#8, BitVec.ofInt 8 cmd, 0x00#8, BitVec.ofInt 8 ((0xBB + cmd) % 256)]))) ∧
    (cmd < 0 ∨ 256 ≤ cmd → exec (.encodeNp cmd) s = .next (withResult s (.err .encodingError .malformedArg)))

/-- R144, R145: `DECODE_FLOATS` in full: a malformed operand (above its range or below 0), a wrong byte count in either direction, or the words,
whose `i`-th is `from_le32` of bytes `4i .. 4i+3` with no bit changed. -/
def Obligations.DecodeFloatsReadsLittleEndianWords : Prop :=
  ∀ (raw : List Int) (count : Int) (s : State),
    ((count < 0 ∨ 255 < count ∨ ∃ b ∈ raw, b < 0 ∨ 256 ≤ b) →
      exec (.decodeFloats raw count) s = .next (withResult s (.err .framingError .malformed))) ∧
    (0 ≤ count → count ≤ 255 → (∀ b ∈ raw, 0 ≤ b ∧ b < 256) → raw.length ≠ 4 * count →
      exec (.decodeFloats raw count) s = .next (withResult s (.err .framingError (.lengthMismatch raw.length)))) ∧
    (0 ≤ count → count ≤ 255 → (∀ b ∈ raw, 0 ≤ b ∧ b < 256) → raw.length = 4 * count →
      ∃ ws : List Word, exec (.decodeFloats raw count) s = .next (withResult s (.words ws)) ∧ ws.length = count ∧
        ∀ i : Nat, i < count → ∃ b0 b1 b2 b3, raw[4 * i]? = some b0 ∧ raw[4 * i + 1]? = some b1 ∧ raw[4 * i + 2]? = some b2 ∧
          raw[4 * i + 3]? = some b3 ∧
          (ws[i]?).map (fun w => (w.toNat : Int)) = some (b0 + 256 * b1 + 65536 * b2 + 16777216 * b3))

/-- R146: `DECODE_FRAME` in full, its checks in their order (R227): each clause excludes the ones before it. An element is malformed above 255
and below 0. -/
def Obligations.DecodeFrameChecksInOrder : Prop :=
  ∀ (f : List Int) (s : State),
    ((∃ b ∈ f, b < 0 ∨ 256 ≤ b) → exec (.decodeFrame f) s = .next (withResult s (.err .framingError .malformed))) ∧
    ((∀ b ∈ f, 0 ≤ b ∧ b < 256) → f.length < 4 →
      exec (.decodeFrame f) s = .next (withResult s (.err .framingError (.shortFrame f.length)))) ∧
    ((∀ b ∈ f, 0 ≤ b ∧ b < 256) → ∀ (start cmd len : Int) (rest : List Int), f = start :: cmd :: len :: rest → rest ≠ [] →
      (start ≠ 0xBB →
        exec (.decodeFrame f) s = .next (withResult s (.err .framingError (.badStart (BitVec.ofInt 8 start))))) ∧
      (start = 0xBB → f.length < len + 4 →
        exec (.decodeFrame f) s = .next (withResult s (.err .framingError (.truncated f.length)))) ∧
      (start = 0xBB → len + 4 < f.length →
        exec (.decodeFrame f) s = .next (withResult s (.err .framingError (.trailingBytes f.length)))) ∧
      (∀ (payload : List Int) (chk : Int), start = 0xBB → rest = payload ++ [chk] → payload.length = len →
        (chk ≠ (0xBB + cmd + len + payload.sum) % 256 →
          exec (.decodeFrame f) s = .next (withResult s (.err .checksumMismatch
            (.checksum (BitVec.ofInt 8 ((0xBB + cmd + len + payload.sum) % 256)) (BitVec.ofInt 8 chk))))) ∧
        (chk = (0xBB + cmd + len + payload.sum) % 256 →
          exec (.decodeFrame f) s = .next (withResult s (.split (BitVec.ofInt 8 cmd) (payload.map (BitVec.ofInt 8)))))))

/-- R147: decoding an encoded frame gives back the command id and the payload, for every id and every payload of at most 255 bytes. -/
def Obligations.DecodeFrameInvertsEncode : Prop :=
  ∀ (cmd : Byte) (payload : List Byte), payload.length ≤ 255 →
    ∃ bs : List Byte, codecEncode cmd.toNat (byteArgs payload) = .ok bs ∧
      codecDecodeFrame (byteArgs bs) = .ok (cmd, payload)

/-- R148: the last byte of `ENCODE(cmd, payload)`. -/
def Obligations.EncodeChecksumByteIsDetermined : Prop :=
  ∀ (cmd : Byte) (payload : List Byte), payload.length ≤ 255 →
    ∃ bs : List Byte, codecEncode cmd.toNat (byteArgs payload) = .ok bs ∧
      bs.getLast?.map BitVec.toNat =
        some ((0xBB + cmd.toNat + payload.length + (payload.map BitVec.toNat).sum) % 256)

/-- R90, R92, R146: what `DECODE_FRAME` accepts is exactly a frame: start marker, length `frame[2] + 4`, payload at bytes 3 .. 2+L, checksum. -/
def Obligations.AcceptedBytesAreTheFrameOfTheirContent : Prop :=
  ∀ (f : List Byte) (cmd : Byte) (payload : List Byte),
    splitFrame f = .ok (cmd, payload) ↔ payload.length ≤ 255 ∧ f = frame cmd payload

/-- R99, R101: every request frame `EXEC` sends is read back as its command and its argument: each of the 14 commands, the argument of
`SET_WORLD_FRAME_ID` at every one of its 2^32 values. -/
def Obligations.RequestFramesDecodeToTheirCommand : Prop :=
  ∀ p ∈ commandForms, ∀ args : List Int, (p.2 args).wf = true →
    ∃ bs : List Byte, encodeFrame? (p.2 args) = some bs ∧ decodeFrameBytes bs = .ok (p.2 args)

/-! ## Acceptance -/

/-- R162: a command with well-formed arguments, accepted in `IDLE` on an open channel, is latched and its request frame built; nothing else
changes but what acceptance clears (R160 b). Completion of `readQuat`, `readRpy`, `readRpyVar`, `readAcc`, `readAccVar`, `readGyro`,
`readGyroVar`, `readMag`, `getFilterGain`, `setWorldFrameId`, `getWorldFrameId`, `readQuatRpy`, `readAccGyro`, `clearDataBuffer` and `exec`. -/
def Obligations.AcceptedCommandIsLatchedAndItsFrameBuilt : Prop :=
  ∀ p ∈ commandForms, ∀ e : CmdEntry, cmdEntry? p.1 = some e → ∀ args : List Int, (p.2 args).wf = true →
    ∀ s : State, s.fsmState = .idle → s.chanOpen = true → ∀ i ∈ [p.2 args, .exec p.1.toNat args],
      let payload : List Byte :=
        match e.shape with
        | .np => []
        | .iw => 0x00#8 :: le32 ((argWord args).getD 0x00000000#32)
      exec i s = .next { s with
        result := Vector.replicate 8 none
        resCnt := 0
        rxBuf := []
        rxLen := 0
        err := .none
        errInfo := none
        curCmd := some p.1
        curArgc := e.argc
        curArg := argWord args
        expN := e.n
        expBytes := Fin.ofNat 37 (4 * e.n.toNat + (if s.cfgRespFramed then 4 else 0))
        txFrame := [0xBB#8, p.1, BitVec.ofNat 8 payload.length] ++ payload ++
          [BitVec.ofNat 8 ((0xBB + p.1.toNat + payload.length + (payload.map BitVec.toNat).sum) % 256)]
        fsmState := .requestSent }

/-- R101: the request frame of every command, byte for byte. -/
def Obligations.RequestFramesAreTheListedBytes : Prop :=
  (∀ p ∈ fixedRequests, ∀ s : State, s.fsmState = .idle → s.chanOpen = true →
    ∃ t, exec p.1 s = .next t ∧ t.txFrame = p.2) ∧
  (∀ (w : Word) (s : State), s.fsmState = .idle → s.chanOpen = true →
    ∃ t, exec (.setWorldFrameId [(w.toNat : Int)]) s = .next t ∧
      t.txFrame = [0xBB#8, 0x1F#8, 0x05#8, 0x00#8, w.extractLsb' 0 8, w.extractLsb' 8 8, w.extractLsb' 16 8, w.extractLsb' 24 8,
        BitVec.ofNat 8 ((0xBB + 0x1F + 0x05 + 0x00 + (w.extractLsb' 0 8).toNat + (w.extractLsb' 8 8).toNat +
          (w.extractLsb' 16 8).toNat + (w.extractLsb' 24 8).toNat) % 256)])

/-- R161: the pre-send checks in their order, each clause excluding the ones before it: the first that fails raises its error, `FAILED` follows
`IDLE`, nothing is latched and no byte is written. -/
def Obligations.PresendChecksFailInOrder : Prop :=
  ∀ (cmd : Int) (args : List Int) (s : State), s.fsmState = .idle →
    (cmd < 0 ∨ 256 ≤ cmd → exec (.exec cmd args) s = .next (presendFailed .malformedArg s)) ∧
    (∀ c : Byte, cmd = c.toNat →
      (cmdEntry? c = none → exec (.exec cmd args) s = .next (presendFailed (.unassignedCmd c) s)) ∧
      (∀ e : CmdEntry, cmdEntry? c = some e →
        (args.length ≠ e.argc.val → exec (.exec cmd args) s = .next (presendFailed (.arity args.length) s)) ∧
        (args.length = e.argc.val → (∃ a ∈ args, a < 0 ∨ 2 ^ 32 ≤ a) →
          exec (.exec cmd args) s = .next (presendFailed .malformedArg s)) ∧
        (args.length = e.argc.val → (∀ a ∈ args, 0 ≤ a ∧ a < 2 ^ 32) → s.chanOpen = false →
          exec (.exec cmd args) s = .next (presendFailed .closed s))))

/-- R160 (a), R167, R168: outside `IDLE`, every `EXEC`, every command, `OPEN` and `CLOSE` is held: it joins the held operations and nothing else
changes. The list of held operations is the model's (log 5). -/
def Obligations.OperationsAreHeldOutsideIdle : Prop :=
  ∀ (i : Instr) (s : State), s.fsmState ≠ .idle →
    (i.execOperands?.isSome ∨ (∃ f n, i = .openChan f n) ∨ i = .closeChan) →
      exec i s = .next { s with held := s.held ++ [i.canon] }

/-! ## Channel operations -/

/-- R167: `OPEN`, in full, whatever the environment draws: held outside `IDLE`; in `IDLE` a malformed operand changes nothing, success sets the
channel and the configuration, failure clears the channel and keeps the configuration; `ERR` and `FSM_STATE` are never written. That a
held `OPEN` joins the end of a list is the model's choice (log 5); so is the form of the environment's answers (log 7). -/
def Obligations.OpenSetsChannelAndConfiguration : Prop :=
  (∀ (respFramed : Int) (timeout : Nat) (s : State), s.fsmState ≠ .idle →
    exec (.openChan respFramed timeout) s = .next { s with held := s.held ++ [.openChan respFramed timeout] }) ∧
  ∀ (respFramed : Int) (timeout : Nat) (s : State), s.fsmState = .idle →
    (respFramed < 0 ∨ 1 < respFramed → exec (.openChan respFramed timeout) s = .next (withResult s (.err .encodingError .malformedArg))) ∧
    (∀ ds, respFramed = 0 ∨ respFramed = 1 → s.openDraws = true :: ds →
      exec (.openChan respFramed timeout) s = .next { s with
        chanOpen := true
        cfgRespFramed := decide (respFramed = 1)
        cfgTTimeout := some timeout
        openDraws := ds
        hostOut := s.hostOut ++ [.done] }) ∧
    (∀ ds, respFramed = 0 ∨ respFramed = 1 → s.openDraws = false :: ds →
      exec (.openChan respFramed timeout) s = .next { s with
        chanOpen := false
        openDraws := ds
        hostOut := s.hostOut ++ [.err .transportError .openFailed] }) ∧
    (respFramed = 0 ∨ respFramed = 1 → s.openDraws = [] →
      exec (.openChan respFramed timeout) s = .next { s with
          chanOpen := true
          cfgRespFramed := decide (respFramed = 1)
          cfgTTimeout := some timeout
          freeCtr := s.freeCtr + 1
          hostOut := s.hostOut ++ [.done] } ∨
      exec (.openChan respFramed timeout) s = .next { s with
          chanOpen := false
          freeCtr := s.freeCtr + 1
          hostOut := s.hostOut ++ [.err .transportError .openFailed] })

/-- R168: `CLOSE` is held outside `IDLE`; in `IDLE` it clears `CHAN_OPEN`, keeps the configuration and hands `ok` to the host, on an open and on a
closed channel; and while the channel is closed, every well-formed command raises `TransportError(CLOSED)` and leaves it closed. That a held
`CLOSE` joins the end of a list is the model's choice (log 5). -/
def Obligations.CloseClearsTheChannel : Prop :=
  (∀ s : State, s.fsmState ≠ .idle → exec .closeChan s = .next { s with held := s.held ++ [.closeChan] }) ∧
  (∀ s : State, s.fsmState = .idle →
    exec .closeChan s = .next { s with chanOpen := false, hostOut := s.hostOut ++ [.done] }) ∧
  (∀ s : State, s.fsmState = .idle → s.chanOpen = false → ∀ p ∈ commandForms, ∀ args : List Int, (p.2 args).wf = true →
    exec (p.2 args) s = .next (presendFailed .closed s) ∧ (presendFailed .closed s).chanOpen = false)

/-! ## Transport and the block's own steps -/

/-- R62: `TxWrite` on an open channel appends all the bytes on `ok` and some first part of them on `fail`; on a closed channel it fails (R64). For
every listed answer and for a free one; beside the draw, only `TX_STREAM` changes. The form of the environment's answers is the model's choice
(log 7); that a closed channel keeps a drawn part too is its inference (DEDUCED, log 26). -/
def Obligations.TxWriteAppendsAllOrAPart : Prop :=
  (∀ (bs : List Byte) (d : TxDraw) (ds : List TxDraw) (s : State), s.txDraws = d :: ds →
    (s.chanOpen = true → d.fails = false → txWrite bs s = (true, { s with txDraws := ds, txStream := s.txStream ++ bs })) ∧
    (s.chanOpen = false ∨ d.fails = true →
      txWrite bs s = (false, { s with txDraws := ds, txStream := s.txStream ++ bs.take (min d.kept bs.length) }))) ∧
  (∀ (bs : List Byte) (s : State), s.txDraws = [] →
    (s.chanOpen = true ∧ txWrite bs s = (true, { s with freeCtr := s.freeCtr + 1, txStream := s.txStream ++ bs })) ∨
    (∃ k, k ≤ bs.length ∧
      txWrite bs s = (false, { s with freeCtr := s.freeCtr + 1, txStream := s.txStream ++ bs.take k })))

/-- R63: `RxRead(n)` on an open channel takes the drawn number of bytes, at most `n`, from the front of `RX_PENDING`; drawn `closed`, or on a closed
channel (R64), it clears `CHAN_OPEN` and consumes nothing. For every listed answer and for a free one. Bytes may arrive at any step, whatever the
state (R66): they join `RX_PENDING` at its end. That bytes arriving during the read are such an event before it is the
model's inference (DEDUCED, log 8). -/
def Obligations.RxReadTakesFromTheFront : Prop :=
  (∀ (n : Nat) (d : RxDraw) (ds : List RxDraw) (s : State), s.rxDraws = d :: ds →
    (∀ k, s.chanOpen = true → d = .bytes k →
      ∃ r rest, s.rxPending = r ++ rest ∧ r.length = min (min k n) s.rxPending.length ∧
        rxRead n s = (some r, { s with rxDraws := ds, rxPending := rest })) ∧
    (s.chanOpen = false ∨ d = .closed → rxRead n s = (none, { s with rxDraws := ds, chanOpen := false }))) ∧
  (∀ (n : Nat) (s : State), s.rxDraws = [] →
    (s.chanOpen = true ∧ ∃ r rest, s.rxPending = r ++ rest ∧ r.length ≤ n ∧
      rxRead n s = (some r, { s with freeCtr := s.freeCtr + 1, rxPending := rest })) ∨
    rxRead n s = (none, { s with freeCtr := s.freeCtr + 1, chanOpen := false })) ∧
  (∀ (s : State) (bs : List Byte) (rest : List Input), s.inputs = .arrive bs :: rest →
    step s = .next { s with inputs := rest, rxPending := s.rxPending ++ bs })

/-- R163: in `REQUEST_SENT` the block's step is one `TxWrite(TX_FRAME)`: `ok` leads to `AWAITING_RESPONSE`, `fail` raises
`TransportError(WRITE_FAILED)`. -/
def Obligations.WriteStepSendsTheFrameOnce : Prop :=
  ∀ s : State, s.fsmState = .requestSent →
    ((txWrite s.txFrame s).1 = true →
      ownStep s = .next { (txWrite s.txFrame s).2 with fsmState := .awaitingResponse }) ∧
    ((txWrite s.txFrame s).1 = false →
      ownStep s = .next { (txWrite s.txFrame s).2 with
        err := .transportError, errInfo := some .writeFailed, fsmState := .failed })

/-- R164, first part: in `AWAITING_RESPONSE` the block's step is one `RxRead(EXP_BYTES)`: `closed` raises `TransportError(CLOSED)`, fewer bytes than
`EXP_BYTES` raise `ShortReadError`; `RESULT` and `RES_CNT` stay as they were. -/
def Obligations.ReadStepRaisesClosedOrShortRead : Prop :=
  ∀ s : State, s.fsmState = .awaitingResponse → s.expBytes.val = responseBytes s.expN s.cfgRespFramed →
    ((rxRead s.expBytes.val s).1 = none →
      ownStep s = .next { (rxRead s.expBytes.val s).2 with
        err := .transportError, errInfo := some .closed, fsmState := .failed }) ∧
    (∀ r, (rxRead s.expBytes.val s).1 = some r → r.length < s.expBytes.val →
      ownStep s = .next { (rxRead s.expBytes.val s).2 with
        rxBuf := r
        rxLen := Fin.ofNat 37 r.length
        err := .shortReadError
        errInfo := some (.shortRead s.expBytes.val r.length)
        fsmState := .failed })

/-- R165 with `CFG_RESP_FRAMED = 0` (R96, R164): a complete raw response is decoded without any check: `RESULT[i]` gets `from_le32` of bytes
`4i .. 4i+3`, the other registers stay, `RES_CNT` is `EXP_N`. -/
def Obligations.RawResponseIsDecodedUnchecked : Prop :=
  ∀ (s : State) (r : List Byte), s.fsmState = .awaitingResponse → s.expBytes.val = 4 * s.expN.toNat →
    s.cfgRespFramed = false → (rxRead s.expBytes.val s).1 = some r → r.length = s.expBytes.val →
    ∃ t, ownStep s = .next t ∧
      t = { (rxRead s.expBytes.val s).2 with
        rxBuf := r, rxLen := s.expBytes, result := t.result, resCnt := Fin.ofNat 9 s.expN.toNat, fsmState := .decoded } ∧
      ∀ i : Fin 8,
        (s.expN.toNat ≤ i.val → t.result[i] = s.result[i]) ∧
        (i.val < s.expN.toNat → ∃ b0 b1 b2 b3, r[4 * i.val]? = some b0 ∧ r[4 * i.val + 1]? = some b1 ∧
          r[4 * i.val + 2]? = some b2 ∧ r[4 * i.val + 3]? = some b3 ∧ t.result[i] = some (fromLe32 b0 b1 b2 b3))

/-- R164 and R165 with `CFG_RESP_FRAMED = 1` (R97): the checks of a complete framed response in their order, each clause excluding the ones
before it; a response that passes them all is decoded from its payload. -/
def Obligations.FramedResponseIsCheckedInOrder : Prop :=
  ∀ (s : State) (c : Byte) (start echo len : Byte) (payload : List Byte) (chk : Byte),
    s.fsmState = .awaitingResponse → s.cfgRespFramed = true → s.curCmd = some c →
    s.expBytes.val = 4 * s.expN.toNat + 4 → payload.length = 4 * s.expN.toNat →
    (rxRead s.expBytes.val s).1 = some ([start, echo, len] ++ payload ++ [chk]) →
    let raised (info : Info) : State := { (rxRead s.expBytes.val s).2 with
      rxBuf := [start, echo, len] ++ payload ++ [chk]
      rxLen := s.expBytes
      err := errCodeOf info
      errInfo := some info
      fsmState := .failed }
    let sum : Byte := BitVec.ofNat 8
      ((start.toNat + echo.toNat + len.toNat + (payload.map BitVec.toNat).sum) % 256)
    (start ≠ 0xBB#8 → ownStep s = .next (raised (.badStart start))) ∧
    (start = 0xBB#8 → echo ≠ c → ownStep s = .next (raised (.badCmdEcho echo))) ∧
    (start = 0xBB#8 → echo = c → len.toNat ≠ 4 * s.expN.toNat → ownStep s = .next (raised (.badLengthField len))) ∧
    (start = 0xBB#8 → echo = c → len.toNat = 4 * s.expN.toNat → chk ≠ sum →
      ownStep s = .next (raised (.checksum sum chk))) ∧
    (start = 0xBB#8 → echo = c → len.toNat = 4 * s.expN.toNat → chk = sum →
      ∃ ws : List Word, wordsOf? payload = some ws ∧ ws.length = s.expN.toNat ∧
        ∃ t, ownStep s = .next t ∧
          t = { (rxRead s.expBytes.val s).2 with
            rxBuf := [start, echo, len] ++ payload ++ [chk]
            rxLen := s.expBytes
            result := t.result
            resCnt := Fin.ofNat 9 s.expN.toNat
            fsmState := .decoded } ∧
          ∀ i : Fin 8, t.result[i] = (ws[i.val]?).or s.result[i])

/-- R166, second case: a failed transaction hands `err(ERR, info)` to the host, discards frame and response, and is `IDLE` again; `RESULT`, `ERR`, the
latched registers, the channel and both streams are unchanged. -/
def Obligations.FailedTransactionIsDelivered : Prop :=
  ∀ (s : State) (info : Info), s.fsmState = .failed → s.errInfo = some info →
    ownStep s = .next { s with
      hostOut := s.hostOut ++ [.err s.err info]
      errInfo := none
      txFrame := []
      rxBuf := []
      rxLen := 0
      fsmState := .idle }

/-- R166, first case, with R203: a decoded transaction hands the caller value with the raw words to the host, or `NonFiniteIntegerError`, the one case
that writes `ERR`; `RESULT` and `RES_CNT` stay as decoded. -/
def Obligations.DecodedTransactionIsDelivered : Prop :=
  ∀ (s : State) (c : Byte) (e : CmdEntry) (ws : List Word), s.fsmState = .decoded → s.curCmd = some c →
    cmdEntry? c = some e → ws.length = s.resCnt.val → s.resCnt.val = e.n.toNat →
    (∀ i : Fin 8, i.val < s.resCnt.val → s.result[i] = ws[i.val]?) →
    ownStep s = .next { s with
      hostOut := s.hostOut ++ [(outcomeOf e.post s.freeCtr ws).1]
      err := if (outcomeOf e.post s.freeCtr ws).2 = .none then s.err else .nonFiniteIntegerError
      freeCtr := s.freeCtr + ws.length
      errInfo := none
      txFrame := []
      rxBuf := []
      rxLen := 0
      fsmState := .idle }

/-! ## Post-processing -/

/-- R201 in full: a NaN gives a NaN, an infinity itself; a finite value gives, with its own sign, the binary64 value nearest to `k / 10^6`, ties to
even, where `k` is the integer nearest to the exact value times `10^6`, ties to even. The NaN is a free value (log 9); the layouts of binary32 and
binary64 are presumed (PRESUMED, unsafe, log 25). -/
def Obligations.Round6IsTheNearestBinary64 : Prop :=
  ∀ (fresh : Nat) (w : Word),
    (f32 w = .nan → f64Val (round6 fresh w) = .nan) ∧
    (∀ neg, f32 w = .inf neg → f64Val (round6 fresh w) = .inf neg) ∧
    (∀ neg mant exp, f32 w = .fin neg mant exp →
      ∃ k : ℕ,
        |(k : ℚ) - mant * 2 ^ exp * 10 ^ 6| ≤ 1 / 2 ∧
        (|(k : ℚ) - mant * 2 ^ exp * 10 ^ 6| = 1 / 2 → Even k) ∧
        ∃ (m : ℕ) (x : ℤ), f64Val (round6 fresh w) = .fin neg m x ∧
          ∀ (b : Bits64) (mb : ℕ) (xb : ℤ), f64Val b = .fin false mb xb →
            |(m : ℚ) * 2 ^ x - k / 10 ^ 6| ≤ |(mb : ℚ) * 2 ^ xb - k / 10 ^ 6| ∧
            (|(m : ℚ) * 2 ^ x - k / 10 ^ 6| = |(mb : ℚ) * 2 ^ xb - k / 10 ^ 6| → (m : ℚ) * 2 ^ x ≠ (mb : ℚ) * 2 ^ xb →
              (round6 fresh w).getLsbD 0 = false))

/-- R206 (a), (b), (e): `ROUND6` is symmetric, keeps the sign of zero, and leaves a finite value of magnitude at least 2^23 as it is. The layouts that
the sign bits, exponent fields and whole words rest on are presumed (PRESUMED, unsafe, log 25). -/
def Obligations.Round6IsSymmetricAndKeepsLargeValues : Prop :=
  (∀ (fresh : Nat) (w : Word), f32 w ≠ .nan →
    round6 fresh (w ^^^ 0x80000000#32) = round6 fresh w ^^^ 0x8000000000000000#64) ∧
  (∀ fresh : Nat, round6 fresh 0x00000000#32 = 0x0000000000000000#64 ∧
    round6 fresh 0x80000000#32 = 0x8000000000000000#64) ∧
  (∀ (fresh : Nat) (w : Word), 150 ≤ (w.extractLsb' 23 8).toNat → (w.extractLsb' 23 8).toNat < 255 →
    (f64Val (round6 fresh w)).toRat? = (f32 w).toRat?)

/-- R202: `TRUNC` has no integer for a NaN or an infinity, and otherwise gives the integer toward zero. The binary64 layout its operand is read by
is presumed (PRESUMED, unsafe, log 25). -/
def Obligations.TruncRoundsTowardZero : Prop :=
  ∀ b : Bits64,
    (f64Val b = .nan → trunc b = none) ∧
    (∀ neg, f64Val b = .inf neg → trunc b = none) ∧
    (∀ neg mant exp, f64Val b = .fin neg mant exp →
      trunc b = some (if neg then -⌊(mant : ℚ) * 2 ^ exp⌋ else ⌊(mant : ℚ) * 2 ^ exp⌋))

/-- R203, R204: `POST` by class: each word rounded; the first seven words rounded; the first word rounded and then truncated, or the error with the
rounded value. That the `i`-th word's `ROUND6` has the free value of index `fresh + i` for a NaN is the model's numbering (DEDUCED, log 9). -/
def Obligations.PostFollowsTheClass : Prop :=
  ∀ (fresh : Nat) (ws : List Word),
    (∃ xs, post fresh .real ws = some (.ok (.reals xs)) ∧ xs.length = ws.length ∧
      ∀ (i : Nat) (w : Word), ws[i]? = some w → xs[i]? = some (round6 (fresh + i) w)) ∧
    (7 ≤ ws.length → ∃ xs, post fresh .real7 ws = some (.ok (.reals xs)) ∧ xs.length = 7 ∧
      ∀ (i : Nat) (w : Word), i < 7 → ws[i]? = some w → xs[i]? = some (round6 (fresh + i) w)) ∧
    (∀ w, ws.head? = some w →
      (∀ z, trunc (round6 fresh w) = some z → post fresh .int ws = some (.ok (.int z))) ∧
      (trunc (round6 fresh w) = none → post fresh .int ws = some (.error (round6 fresh w)))) ∧
    (cmdRows.map fun e => (e.id, e.post)) =
      [(0x01#8, .real), (0x02#8, .real), (0x03#8, .real), (0x05#8, .real), (0x09#8, .real), (0x0B#8, .real), (0x0F#8, .real),
        (0x11#8, .real), (0x1E#8, .real), (0x1F#8, .int), (0x20#8, .int), (0x22#8, .real7), (0x23#8, .real), (0x27#8, .int)]

/-- The vectors V-R6-3, V-R6-8, V-R6-12, V-R6-16 and the numbers of R204: an ordinary value, a tie to even, a zero that keeps its sign, and a
word on which rounding before truncation differs from truncation alone. The spec lists these values as decimals; the 64-bit words that stand for
them here come from the binary64 layout (PRESUMED, unsafe, log 25). -/
def Obligations.Round6AndTruncGiveTheVectorsOfTheSpec : Prop :=
  round6 0 0x40490FDB#32 = 0x400921FB82C2BD7F#64 ∧
  round6 0 0x3C000000#32 = 0x3F7FFF79C842FA51#64 ∧
  round6 0 0xB4D6BF95#32 = 0x8000000000000000#64 ∧
  round6 0 0x3F7FFFF9#32 = 0x3FF0000000000000#64 ∧
  trunc (round6 0 0x3F7FFFF9#32) = some 1 ∧
  trunc (widen 0 0x3F7FFFF9#32) = some 0

/-! ## Whole transactions -/

/-- R169 (R160 to R166 in sequence), R96, R97: with the channel open, a write that succeeds and a read that delivers the complete response, a
well-formed command runs through its four events and is `IDLE` again: its frame is in `TX_STREAM`, exactly the response has left
`RX_PENDING`, `RESULT` holds the raw words and `⊥` above them, and the host has the outcome of its class. All 14 commands, both modes. -/
def Obligations.TransactionDeliversTheDecodedResponse : Prop :=
  ∀ p ∈ commandForms, ∀ e : CmdEntry, cmdEntry? p.1 = some e → ∀ args : List Int, (p.2 args).wf = true →
    ∀ (s : State) (kept k : Nat) (ds : List TxDraw) (rs : List RxDraw) (payload rest : List Byte) (ws : List Word),
      s.fsmState = .idle → s.chanOpen = true → s.held = [] → s.inputs = [] →
      s.txDraws = ⟨false, kept⟩ :: ds → s.rxDraws = .bytes k :: rs → 36 ≤ k →
      s.rxPending = responseOnLine s.cfgRespFramed p.1 payload ++ rest →
      payload.length = 4 * e.n.toNat → wordsOf? payload = some ws →
      ∃ t u, exec (p.2 args) s = .next t ∧ Host.Core.run Sys2Proof.core 3 t = .next u ∧
        u.fsmState = .idle ∧ u.chanOpen = true ∧ u.cfgRespFramed = s.cfgRespFramed ∧ u.cfgTTimeout = s.cfgTTimeout ∧
        u.curCmd = some p.1 ∧ u.curArgc = e.argc ∧ u.curArg = argWord args ∧ u.expN = e.n ∧
        u.expBytes.val = responseBytes e.n s.cfgRespFramed ∧
        u.txFrame = [] ∧ u.rxBuf = [] ∧ u.rxLen = 0 ∧
        u.resCnt.val = e.n.toNat ∧ (∀ i : Fin 8, u.result[i] = ws[i.val]?) ∧
        u.txStream = s.txStream ++ frame p.1 (requestPayload e (argWord args)) ∧
        u.rxPending = rest ∧
        u.hostOut = s.hostOut ++ [(outcomeOf e.post s.freeCtr ws).1] ∧
        u.err = (outcomeOf e.post s.freeCtr ws).2

/-- R222, R274, R164: with the channel open, a write that succeeds and a read that returns fewer bytes than the response, the command ends in
`ShortReadError`: `RESULT` is all `⊥`, the returned bytes are gone, configuration and channel are unchanged, and the block is `IDLE`. -/
def Obligations.ShortReadIsDeliveredAndRecoverable : Prop :=
  ∀ p ∈ commandForms, ∀ e : CmdEntry, cmdEntry? p.1 = some e → ∀ args : List Int, (p.2 args).wf = true →
    ∀ (s : State) (kept k : Nat) (ds : List TxDraw) (rs : List RxDraw) (got rest : List Byte),
      s.fsmState = .idle → s.chanOpen = true → s.held = [] → s.inputs = [] →
      s.txDraws = ⟨false, kept⟩ :: ds → s.rxDraws = .bytes k :: rs →
      s.rxPending = got ++ rest → got.length = min k s.rxPending.length →
      got.length < responseBytes e.n s.cfgRespFramed →
      ∃ t u, exec (p.2 args) s = .next t ∧ Host.Core.run Sys2Proof.core 3 t = .next u ∧
        u.fsmState = .idle ∧ u.chanOpen = true ∧ u.cfgRespFramed = s.cfgRespFramed ∧ u.cfgTTimeout = s.cfgTTimeout ∧
        u.resCnt = 0 ∧ (∀ i : Fin 8, u.result[i] = none) ∧
        u.txStream = s.txStream ++ frame p.1 (requestPayload e (argWord args)) ∧ u.rxPending = rest ∧
        u.err = .shortReadError ∧
        u.hostOut = s.hostOut ++ [.err .shortReadError (.shortRead (responseBytes e.n s.cfgRespFramed) got.length)]

/-- R163, R224, R274, U8: when the write fails, some first part of the frame is in `TX_STREAM`, no read is made, and the host gets
`TransportError(WRITE_FAILED)`. -/
def Obligations.FailedWriteMakesNoRead : Prop :=
  ∀ p ∈ commandForms, ∀ e : CmdEntry, cmdEntry? p.1 = some e → ∀ args : List Int, (p.2 args).wf = true →
    ∀ (s : State) (kept : Nat) (ds : List TxDraw),
      s.fsmState = .idle → s.chanOpen = true → s.held = [] → s.inputs = [] → s.txDraws = ⟨true, kept⟩ :: ds →
      ∃ t u, exec (p.2 args) s = .next t ∧ Host.Core.run Sys2Proof.core 2 t = .next u ∧
        u.fsmState = .idle ∧ u.resCnt = 0 ∧ (∀ i : Fin 8, u.result[i] = none) ∧
        u.txStream = s.txStream ++ (frame p.1 (requestPayload e (argWord args))).take kept ∧
        u.rxPending = s.rxPending ∧ u.rxDraws = s.rxDraws ∧ u.err = .transportError ∧
        u.hostOut = s.hostOut ++ [.err .transportError .writeFailed]

/-- R160 (a), R226: from every state with the invariant, a transaction in progress is over, with exactly one result delivered, after at most three
of the block's own steps, whatever the environment draws. It rests on every write and read returning (PRESUMED, log 20). -/
def Obligations.TransactionFinishesInThreeSteps : Prop :=
  ∀ s : State, s.Inv → s.fsmState ≠ .idle → s.inputs = [] →
    ∃ k, 1 ≤ k ∧ k ≤ 3 ∧ ∃ t, Host.Core.run Sys2Proof.core k s = .next t ∧ t.fsmState = .idle ∧ ∃ r, t.hostOut = s.hostOut ++ [r]

/-! ## Reset and whole-machine rules -/

/-- R261: every element of the block at its reset value. -/
def Obligations.ResetLeavesTheStatedValues : Prop :=
  fsmBits State.reset.fsmState = 0#3 ∧ State.reset.fsmState = .idle ∧ State.reset.curCmd = none ∧
  State.reset.curArgc = 0 ∧ State.reset.curArg = none ∧ State.reset.expN.toNat = 0 ∧ State.reset.expBytes = 0 ∧
  State.reset.txFrame = [] ∧ State.reset.rxBuf = [] ∧ State.reset.rxLen = 0 ∧ (∀ i : Fin 8, State.reset.result[i] = none) ∧
  State.reset.resCnt = 0 ∧ State.reset.err = .none ∧ errBits State.reset.err = 0#3 ∧ State.reset.cfgRespFramed = false ∧
  State.reset.cfgTTimeout = none ∧ State.reset.chanOpen = false

/-- R260 to R262, R265: a reset event leaves the block as after reset, keeps `RX_PENDING`, delivers no outcome, and keeps `TX_STREAM` but for the first
part of a request whose write had begun (log 18). It may come in any state, whatever is held; that held operations survive it is the model's
choice (log 6). -/
def Obligations.ResetEventKeepsTheEnvironment : Prop :=
  ∀ (s : State) (kept : Nat) (rest : List Input), s.inputs = .reset kept :: rest →
    ∃ t, step s = .next t ∧
      t = { State.reset with
        txStream := t.txStream
        rxPending := s.rxPending
        hostOut := s.hostOut
        held := s.held
        inputs := rest
        txDraws := s.txDraws
        rxDraws := s.rxDraws
        openDraws := s.openDraws
        freeCtr := s.freeCtr } ∧
      (s.fsmState ≠ .requestSent → t.txStream = s.txStream) ∧
      (s.fsmState = .requestSent → t.txStream = s.txStream ++ s.txFrame.take kept)

/-- The invariant holds at reset (R261). -/
def Obligations.InvariantHoldsAtReset : Prop := State.reset.Inv

/-- R24 to R31: every step from a state with the invariant leads to a state with the invariant: `CUR_CMD` assigned, `RX_LEN <= EXP_BYTES <= 36`,
`TX_FRAME` at most 9 bytes, the valid `RESULT` registers the first `RES_CNT`, all agreeing with `FSM_STATE`. -/
def Obligations.StepKeepsTheInvariant : Prop :=
  ∀ s t : State, s.Inv → step s = .next t → t.Inv

/-- R16, R30: from a state with the invariant no step faults: no rule reads an element that holds `⊥`. -/
def Obligations.InvariantExcludesFaults : Prop := ∀ s : State, s.Inv → NoFault s

/-- R23, R224, R226: every step moves along an edge of the state machine; only delivery and reset lead to `IDLE` from another state, and delivery hands
exactly one result to the host. -/
def Obligations.StepFollowsTheStateMachine : Prop :=
  ∀ s t : State, step s = .next t →
    fsmEdge s.fsmState t.fsmState = true ∧
    (s.fsmState ≠ .idle → t.fsmState = .idle →
      (∃ kept rest, s.inputs = .reset kept :: rest) ∨
      ((s.fsmState = .decoded ∨ s.fsmState = .failed) ∧ ∃ r, t.hostOut = s.hostOut ++ [r]))

/-- R37, R62, R274: `TX_STREAM` is append-only; a step appends to it only from `REQUEST_SENT`, and then a first part of `TX_FRAME`. -/
def Obligations.TxStreamIsAppendOnly : Prop :=
  ∀ s t : State, step s = .next t →
    t.txStream = s.txStream ∨ (s.fsmState = .requestSent ∧ ∃ k, t.txStream = s.txStream ++ s.txFrame.take k)

/-- R37, R66, R270: the block never discards inbound bytes: a step leaves `RX_PENDING` as it is, or it is the environment appending to it, or it is the
read step taking at most `EXP_BYTES` bytes from its front. -/
def Obligations.RxPendingIsConsumedOnlyByTheReadStep : Prop :=
  ∀ s t : State, step s = .next t →
    t.rxPending = s.rxPending ∨
    (∃ bs rest, s.inputs = .arrive bs :: rest ∧ t.rxPending = s.rxPending ++ bs) ∨
    (s.fsmState = .awaitingResponse ∧ ∃ k, k ≤ s.expBytes.val ∧ t.rxPending = s.rxPending.drop k)

/-- R220, R227: a step hands at most one result to the host, and takes none back. -/
def Obligations.StepDeliversAtMostOneResult : Prop :=
  ∀ s t : State, step s = .next t → t.hostOut = s.hostOut ∨ ∃ r, t.hostOut = s.hostOut ++ [r]

/-- R33, R34: `CFG_RESP_FRAMED` and `CFG_T_TIMEOUT` are written only by a successful `OPEN` and by reset: any other operation, any step of the
block and any event of the environment keeps them. -/
def Obligations.OnlyOpenAndResetWriteTheConfiguration : Prop :=
  (∀ (i : Instr) (s t : State), (∀ f n, i ≠ .openChan f n) → exec i s = .next t →
    t.cfgRespFramed = s.cfgRespFramed ∧ t.cfgTTimeout = s.cfgTTimeout) ∧
  (∀ s t : State, ownStep s = .next t → t.cfgRespFramed = s.cfgRespFramed ∧ t.cfgTTimeout = s.cfgTTimeout) ∧
  (∀ (s : State) (bs : List Byte), (envArrive bs s).cfgRespFramed = s.cfgRespFramed ∧
    (envClose s).cfgRespFramed = s.cfgRespFramed ∧ (envArrive bs s).cfgTTimeout = s.cfgTTimeout ∧
    (envClose s).cfgTTimeout = s.cfgTTimeout)

/-- R64: the environment may close the channel between any two steps, whatever the state and whatever is held; a `TxWrite` after that fails and an `RxRead` draws `closed`; and only `OPEN` sets `CHAN_OPEN`
back to 1. -/
def Obligations.OnlyOpenReopensTheChannel : Prop :=
  (∀ (s : State) (rest : List Input), s.inputs = .chanClosed :: rest →
    step s = .next { s with inputs := rest, chanOpen := false }) ∧
  (∀ (s : State) (bs : List Byte), s.chanOpen = false → (txWrite bs s).1 = false) ∧
  (∀ (s : State) (n : Nat), s.chanOpen = false → (rxRead n s).1 = none) ∧
  (∀ (i : Instr) (s t : State), s.chanOpen = false → exec i s = .next t → t.chanOpen = true → ∃ f n, i = .openChan f n) ∧
  (∀ s t : State, s.chanOpen = false → step s = .next t → t.chanOpen = true → ∃ f n u, nextEvent s = .run (.openChan f n) u)

/-- R225: a codec operation and, in `IDLE`, `OPEN` and `CLOSE` hand one result to the host directly; no error of theirs writes `ERR`, `FSM_STATE` or
the information recorded for delivery; the `TransportError` of `OPEN` clears `CHAN_OPEN`; `CLOSE` raises nothing. -/
def Obligations.ErrorsOutsideATransactionWriteNoStatus : Prop :=
  (∀ (i : Instr) (s : State), i.execOperands? = none →
    (s.fsmState = .idle ∨ ((∀ f n, i ≠ .openChan f n) ∧ i ≠ .closeChan)) →
      ∃ t r, exec i s = .next t ∧ t.hostOut = s.hostOut ++ [r]) ∧
  (∀ (i : Instr) (s t : State), i.execOperands? = none → exec i s = .next t →
    t.err = s.err ∧ t.fsmState = s.fsmState ∧ t.errInfo = s.errInfo) ∧
  (∀ (i : Instr) (s t : State) (info : Info), i.execOperands? = none → exec i s = .next t →
    t.hostOut = s.hostOut ++ [.err .transportError info] → info = .openFailed ∧ t.chanOpen = false) ∧
  (∀ (s t : State) (code : ErrCode) (info : Info), exec .closeChan s = .next t → t.hostOut ≠ s.hostOut ++ [.err code info])

/-- R23, R221: the numbers of the states and of the error codes, and the error each reason belongs to. -/
def Obligations.StatusCodesAreTheListedNumbers : Prop :=
  [FsmState.idle, .requestSent, .awaitingResponse, .decoded, .failed].map (fun x => (fsmBits x).toNat) = [0, 1, 2, 3, 4] ∧
  [ErrCode.none, .encodingError, .transportError, .shortReadError, .framingError, .checksumMismatch,
    .nonFiniteIntegerError].map (fun x => (errBits x).toNat) = [0, 1, 2, 3, 4, 5, 6] ∧
  (∀ m n c d b, [Info.malformedArg, .payloadTooLong n, .unassignedCmd c, .arity n].map errCodeOf = List.replicate 4 .encodingError ∧
    [Info.closed, .writeFailed, .openFailed].map errCodeOf = List.replicate 3 .transportError ∧
    errCodeOf (.shortRead m n) = .shortReadError ∧
    [Info.malformed, .lengthMismatch n, .shortFrame n, .badStart c, .truncated n, .trailingBytes n, .badCmdEcho c,
      .badLengthField c].map errCodeOf = List.replicate 8 .framingError ∧
    errCodeOf (.checksum c d) = .checksumMismatch ∧ errCodeOf (.nonFinite b) = .nonFiniteIntegerError)

/-- R107, R108: lines of a host program: an operation with its operands, a command by number and by name, a mnemonic alone, a mnemonic with a literal,
and a line with only a comment. -/
def Obligations.HostProgramLinesStandForRequests : Prop :=
  parseLine "ENCODE        0x1F, [00 00 00 80 3F]".toList = .ok (some (.op (encodeRequest (.encode 0x1F [0, 0, 0, 0x80, 0x3F])))) ∧
  parseLine "EXEC          0x04".toList = .ok (some (.op (encodeRequest (.exec 0x04 [])))) ∧
  parseLine "EXEC          SET_WORLD_FRAME_ID, 0x3F800000".toList =
    .ok (some (.op (encodeRequest (.setWorldFrameId [0x3F800000])))) ∧
  parseLine "SET_WORLD_FRAME_ID 1.0 ; the same".toList = .ok (some (.op (encodeRequest (.setWorldFrameId [0x3F800000])))) ∧
  parseLine "READ_RPY".toList = .ok (some (.op (encodeRequest (.readRpy [])))) ∧
  parseLine "; nothing".toList = .ok none
end

