-- ==== Sys2Proof/Laws/Operands.lean ====
section
/-! SUPPORT. The small lemmas of the operand forms, the packing, the checksum, the frame layouts and the command table. -/

namespace Sys2Proof.Machine

@[simp] theorem toByte?_toNat (b : Byte) : toByte? b.toNat = some b := by
  have := b.isLt
  unfold toByte?
  rw [if_pos (by omega)]
  simp

@[simp] theorem toWord?_toNat (w : Word) : toWord? w.toNat = some w := by
  have := w.isLt
  unfold toWord?
  rw [if_pos (by omega)]
  simp

/-- The numbers that are a byte are its values 0..255; every other integer, negative or not, is none (R105). -/
theorem toByte?_eq_some {n : Int} {b : Byte} : toByte? n = some b ↔ n = b.toNat := by
  refine ⟨fun h => ?_, fun h => h ▸ toByte?_toNat b⟩
  unfold toByte? at h
  split at h
  · cases h
    have := Int.emod_eq_of_lt (a := n) (b := 256) (by omega) (by omega)
    simp [BitVec.toNat_ofInt]
    omega
  · cases h

theorem toWord?_eq_some {n : Int} {w : Word} : toWord? n = some w ↔ n = w.toNat := by
  refine ⟨fun h => ?_, fun h => h ▸ toWord?_toNat w⟩
  unfold toWord? at h
  split at h
  · cases h
    have := Int.emod_eq_of_lt (a := n) (b := 2 ^ 32) (by omega) (by omega)
    simp [BitVec.toNat_ofInt]
    omega
  · cases h

theorem toByte?_of_range {n : Int} (h0 : 0 ≤ n) (h : n < 256) : toByte? n = some (BitVec.ofInt 8 n) := if_pos ⟨h0, h⟩

theorem toByte?_eq_none {n : Int} : toByte? n = none ↔ n < 0 ∨ 256 ≤ n := by
  unfold toByte?; split <;> simp <;> omega

theorem toWord?_of_range {n : Int} (h0 : 0 ≤ n) (h : n < 2 ^ 32) : toWord? n = some (BitVec.ofInt 32 n) := if_pos ⟨h0, h⟩

theorem toWord?_eq_none {n : Int} : toWord? n = none ↔ n < 0 ∨ 2 ^ 32 ≤ n := by
  unfold toWord?; split <;> simp <;> omega

@[simp] theorem toBytes?_nil : toBytes? [] = some [] := rfl

theorem toBytes?_cons (n : Int) (ns : List Int) :
    toBytes? (n :: ns) = (toByte? n).bind fun b => (toBytes? ns).map (b :: ·) := by
  simp only [toBytes?]; cases toByte? n <;> cases toBytes? ns <;> rfl

@[simp] theorem toBytes?_byteArgs (bs : List Byte) : toBytes? (byteArgs bs) = some bs := by
  induction bs with
  | nil => rfl
  | cons b bs ih => rw [byteArgs] at ih ⊢; simp [toBytes?_cons, ih]

/-- The operands that are a byte sequence are its own numbers. -/
theorem toBytes?_eq_some {ns : List Int} {bs : List Byte} : toBytes? ns = some bs ↔ ns = byteArgs bs := by
  refine ⟨fun h => ?_, fun h => h ▸ toBytes?_byteArgs bs⟩
  induction ns generalizing bs with
  | nil => cases h; rfl
  | cons n ns ih =>
    rw [toBytes?_cons] at h
    cases hn : toByte? n with
    | none => simp [hn] at h
    | some b =>
      cases hs : toBytes? ns with
      | none => simp [hn, hs] at h
      | some cs =>
        simp only [hn, hs, Option.bind_some, Option.map_some, Option.some.injEq] at h
        subst h
        rw [ih hs, toByte?_eq_some.mp hn]
        rfl

/-- In-range operand bytes are read one by one. -/
theorem toBytes?_of_all {ns : List Int} (h : ∀ b ∈ ns, 0 ≤ b ∧ b < 256) : toBytes? ns = some (ns.map (BitVec.ofInt 8)) := by
  induction ns with
  | nil => rfl
  | cons n ns ih =>
    have hn := h n (by simp)
    simp [toBytes?_cons, toByte?_of_range hn.1 hn.2, ih fun b hb => h b (by simp [hb])]

/-- One operand byte out of range, above it or below 0, makes the whole sequence malformed. -/
theorem toBytes?_of_mem {ns : List Int} {b : Int} (hb : b ∈ ns) (h : b < 0 ∨ 256 ≤ b) : toBytes? ns = none := by
  induction ns with
  | nil => simp at hb
  | cons n ns ih =>
    rw [toBytes?_cons]
    obtain rfl | hb := List.mem_cons.mp hb
    · simp [toByte?_eq_none.mpr h]
    · simp [ih hb]

@[simp] theorem wordsOf?_nil : wordsOf? [] = some [] := rfl

theorem wordsOf?_cons (b0 b1 b2 b3 : Byte) (rest : List Byte) :
    wordsOf? (b0 :: b1 :: b2 :: b3 :: rest) = (wordsOf? rest).map (fromLe32 b0 b1 b2 b3 :: ·) := by
  simp only [wordsOf?]; cases wordsOf? rest <;> rfl

/-- A whole number of groups decodes to that many words. -/
theorem wordsOf?_of_length {n : Nat} : ∀ {bs : List Byte}, bs.length = 4 * n →
    ∃ ws, wordsOf? bs = some ws ∧ ws.length = n := by
  induction n with
  | zero => intro bs h; exact ⟨[], by simp [List.length_eq_zero_iff.mp (by omega : bs.length = 0)], rfl⟩
  | succ n ih =>
    intro bs h
    match bs, h with
    | b0 :: b1 :: b2 :: b3 :: rest, h =>
      obtain ⟨ws, hw, hl⟩ := ih (bs := rest) (by simp at h; omega)
      exact ⟨fromLe32 b0 b1 b2 b3 :: ws, by simp [wordsOf?_cons, hw], by simp [hl]⟩
    | [], h => simp at h
    | [_], h => simp at h; omega
    | [_, _], h => simp at h; omega
    | [_, _, _], h => simp at h; omega

@[simp] theorem checksum_nil : checksum [] = 0#8 := rfl

theorem checksum_foldl (acc : Byte) (s : List Byte) :
    s.foldl (fun acc b => acc + b) acc = acc + checksum s := by
  induction s generalizing acc with
  | nil => simp
  | cons b s ih =>
    have hb : checksum (b :: s) = 0#8 + b + checksum s := ih (0#8 + b)
    rw [List.foldl_cons, ih, hb, BitVec.zero_add, BitVec.add_assoc]

theorem checksum_cons (b : Byte) (s : List Byte) : checksum (b :: s) = b + checksum s := by
  rw [checksum, List.foldl_cons, checksum_foldl, BitVec.zero_add]

@[simp] theorem frameBody_length (cmd : Byte) (p : List Byte) : (frameBody cmd p).length = p.length + 3 := by
  simp [frameBody]

@[simp] theorem frame_length (cmd : Byte) (p : List Byte) : (frame cmd p).length = p.length + 4 := by
  simp [frame]

theorem frame_eq (cmd : Byte) (p : List Byte) :
    frame cmd p = Config.startByte :: cmd :: BitVec.ofNat 8 p.length :: (p ++ [checksum (frameBody cmd p)]) := by
  simp [frame, frameBody]

@[simp] theorem le32_length (w : Word) : (le32 w).length = 4 := rfl

@[simp] theorem iwPayload_length (w : Word) : (iwPayload w).length = 5 := rfl

/-- The length of a request payload is 0 or 5 (R93, R94). -/
theorem requestPayload_length (e : CmdEntry) (arg : Option Word) :
    (requestPayload e arg).length = match e.shape with | .np => 0 | .iw => 5 := by
  unfold requestPayload; split <;> simp_all

/-- Every entry found under an id carries that id and is a row of the table. -/
theorem cmdEntry?_some {c : Byte} {e : CmdEntry} (h : cmdEntry? c = some e) : e ∈ cmdRows ∧ e.id = c := by
  unfold cmdEntry? at h
  exact ⟨List.mem_of_find?_eq_some h, by simpa using List.find?_some h⟩

@[simp] theorem cmdEntry?_id {c : Byte} {e : CmdEntry} (h : cmdEntry? c = some e) : e.id = c := (cmdEntry?_some h).2

/-- A float count is at most 8, the size of the result file. -/
theorem floatCount_le (n : FloatCount) : n.toNat ≤ 8 := by cases n <;> decide

end Sys2Proof.Machine
end

