-- ==== Sys2Proof/Laws/State.lean ====
section
/-! SUPPORT. One lemma per field per update of State, so that no later proof unfolds a record update; for the draws of the environment
and the transport primitives, the fields they leave unchanged. -/

namespace Sys2Proof.Machine

/-! ### `giveHost` -/

@[simp] theorem giveHost_fsmState (r : HostResult) (s : State) : (giveHost r s).fsmState = s.fsmState := rfl
@[simp] theorem giveHost_curCmd (r : HostResult) (s : State) : (giveHost r s).curCmd = s.curCmd := rfl
@[simp] theorem giveHost_curArgc (r : HostResult) (s : State) : (giveHost r s).curArgc = s.curArgc := rfl
@[simp] theorem giveHost_curArg (r : HostResult) (s : State) : (giveHost r s).curArg = s.curArg := rfl
@[simp] theorem giveHost_expN (r : HostResult) (s : State) : (giveHost r s).expN = s.expN := rfl
@[simp] theorem giveHost_expBytes (r : HostResult) (s : State) : (giveHost r s).expBytes = s.expBytes := rfl
@[simp] theorem giveHost_txFrame (r : HostResult) (s : State) : (giveHost r s).txFrame = s.txFrame := rfl
@[simp] theorem giveHost_rxBuf (r : HostResult) (s : State) : (giveHost r s).rxBuf = s.rxBuf := rfl
@[simp] theorem giveHost_rxLen (r : HostResult) (s : State) : (giveHost r s).rxLen = s.rxLen := rfl
@[simp] theorem giveHost_result (r : HostResult) (s : State) : (giveHost r s).result = s.result := rfl
@[simp] theorem giveHost_resCnt (r : HostResult) (s : State) : (giveHost r s).resCnt = s.resCnt := rfl
@[simp] theorem giveHost_err (r : HostResult) (s : State) : (giveHost r s).err = s.err := rfl
@[simp] theorem giveHost_cfgRespFramed (r : HostResult) (s : State) : (giveHost r s).cfgRespFramed = s.cfgRespFramed := rfl
@[simp] theorem giveHost_cfgTTimeout (r : HostResult) (s : State) : (giveHost r s).cfgTTimeout = s.cfgTTimeout := rfl
@[simp] theorem giveHost_chanOpen (r : HostResult) (s : State) : (giveHost r s).chanOpen = s.chanOpen := rfl
@[simp] theorem giveHost_txStream (r : HostResult) (s : State) : (giveHost r s).txStream = s.txStream := rfl
@[simp] theorem giveHost_rxPending (r : HostResult) (s : State) : (giveHost r s).rxPending = s.rxPending := rfl
@[simp] theorem giveHost_errInfo (r : HostResult) (s : State) : (giveHost r s).errInfo = s.errInfo := rfl
@[simp] theorem giveHost_hostOut (r : HostResult) (s : State) : (giveHost r s).hostOut = s.hostOut ++ [r] := rfl
@[simp] theorem giveHost_held (r : HostResult) (s : State) : (giveHost r s).held = s.held := rfl
@[simp] theorem giveHost_inputs (r : HostResult) (s : State) : (giveHost r s).inputs = s.inputs := rfl
@[simp] theorem giveHost_txDraws (r : HostResult) (s : State) : (giveHost r s).txDraws = s.txDraws := rfl
@[simp] theorem giveHost_rxDraws (r : HostResult) (s : State) : (giveHost r s).rxDraws = s.rxDraws := rfl
@[simp] theorem giveHost_openDraws (r : HostResult) (s : State) : (giveHost r s).openDraws = s.openDraws := rfl
@[simp] theorem giveHost_freeCtr (r : HostResult) (s : State) : (giveHost r s).freeCtr = s.freeCtr := rfl

/-! ### `raise` -/

@[simp] theorem raise_fsmState (info : Info) (s : State) : (raise info s).fsmState = .failed := rfl
@[simp] theorem raise_curCmd (info : Info) (s : State) : (raise info s).curCmd = s.curCmd := rfl
@[simp] theorem raise_curArgc (info : Info) (s : State) : (raise info s).curArgc = s.curArgc := rfl
@[simp] theorem raise_curArg (info : Info) (s : State) : (raise info s).curArg = s.curArg := rfl
@[simp] theorem raise_expN (info : Info) (s : State) : (raise info s).expN = s.expN := rfl
@[simp] theorem raise_expBytes (info : Info) (s : State) : (raise info s).expBytes = s.expBytes := rfl
@[simp] theorem raise_txFrame (info : Info) (s : State) : (raise info s).txFrame = s.txFrame := rfl
@[simp] theorem raise_rxBuf (info : Info) (s : State) : (raise info s).rxBuf = s.rxBuf := rfl
@[simp] theorem raise_rxLen (info : Info) (s : State) : (raise info s).rxLen = s.rxLen := rfl
@[simp] theorem raise_result (info : Info) (s : State) : (raise info s).result = s.result := rfl
@[simp] theorem raise_resCnt (info : Info) (s : State) : (raise info s).resCnt = s.resCnt := rfl
@[simp] theorem raise_err (info : Info) (s : State) : (raise info s).err = errCodeOf info := rfl
@[simp] theorem raise_cfgRespFramed (info : Info) (s : State) : (raise info s).cfgRespFramed = s.cfgRespFramed := rfl
@[simp] theorem raise_cfgTTimeout (info : Info) (s : State) : (raise info s).cfgTTimeout = s.cfgTTimeout := rfl
@[simp] theorem raise_chanOpen (info : Info) (s : State) : (raise info s).chanOpen = s.chanOpen := rfl
@[simp] theorem raise_txStream (info : Info) (s : State) : (raise info s).txStream = s.txStream := rfl
@[simp] theorem raise_rxPending (info : Info) (s : State) : (raise info s).rxPending = s.rxPending := rfl
@[simp] theorem raise_errInfo (info : Info) (s : State) : (raise info s).errInfo = some info := rfl
@[simp] theorem raise_hostOut (info : Info) (s : State) : (raise info s).hostOut = s.hostOut := rfl
@[simp] theorem raise_held (info : Info) (s : State) : (raise info s).held = s.held := rfl
@[simp] theorem raise_inputs (info : Info) (s : State) : (raise info s).inputs = s.inputs := rfl
@[simp] theorem raise_txDraws (info : Info) (s : State) : (raise info s).txDraws = s.txDraws := rfl
@[simp] theorem raise_rxDraws (info : Info) (s : State) : (raise info s).rxDraws = s.rxDraws := rfl
@[simp] theorem raise_openDraws (info : Info) (s : State) : (raise info s).openDraws = s.openDraws := rfl
@[simp] theorem raise_freeCtr (info : Info) (s : State) : (raise info s).freeCtr = s.freeCtr := rfl

/-! ### `finish` -/

@[simp] theorem finish_fsmState (s : State) : (finish s).fsmState = .idle := rfl
@[simp] theorem finish_curCmd (s : State) : (finish s).curCmd = s.curCmd := rfl
@[simp] theorem finish_curArgc (s : State) : (finish s).curArgc = s.curArgc := rfl
@[simp] theorem finish_curArg (s : State) : (finish s).curArg = s.curArg := rfl
@[simp] theorem finish_expN (s : State) : (finish s).expN = s.expN := rfl
@[simp] theorem finish_expBytes (s : State) : (finish s).expBytes = s.expBytes := rfl
@[simp] theorem finish_txFrame (s : State) : (finish s).txFrame = [] := rfl
@[simp] theorem finish_rxBuf (s : State) : (finish s).rxBuf = [] := rfl
@[simp] theorem finish_rxLen (s : State) : (finish s).rxLen = 0 := rfl
@[simp] theorem finish_result (s : State) : (finish s).result = s.result := rfl
@[simp] theorem finish_resCnt (s : State) : (finish s).resCnt = s.resCnt := rfl
@[simp] theorem finish_err (s : State) : (finish s).err = s.err := rfl
@[simp] theorem finish_cfgRespFramed (s : State) : (finish s).cfgRespFramed = s.cfgRespFramed := rfl
@[simp] theorem finish_cfgTTimeout (s : State) : (finish s).cfgTTimeout = s.cfgTTimeout := rfl
@[simp] theorem finish_chanOpen (s : State) : (finish s).chanOpen = s.chanOpen := rfl
@[simp] theorem finish_txStream (s : State) : (finish s).txStream = s.txStream := rfl
@[simp] theorem finish_rxPending (s : State) : (finish s).rxPending = s.rxPending := rfl
@[simp] theorem finish_errInfo (s : State) : (finish s).errInfo = none := rfl
@[simp] theorem finish_hostOut (s : State) : (finish s).hostOut = s.hostOut := rfl
@[simp] theorem finish_held (s : State) : (finish s).held = s.held := rfl
@[simp] theorem finish_inputs (s : State) : (finish s).inputs = s.inputs := rfl
@[simp] theorem finish_txDraws (s : State) : (finish s).txDraws = s.txDraws := rfl
@[simp] theorem finish_rxDraws (s : State) : (finish s).rxDraws = s.rxDraws := rfl
@[simp] theorem finish_openDraws (s : State) : (finish s).openDraws = s.openDraws := rfl
@[simp] theorem finish_freeCtr (s : State) : (finish s).freeCtr = s.freeCtr := rfl

/-! ### `clearTransaction` -/

@[simp] theorem clearTransaction_fsmState (s : State) : (clearTransaction s).fsmState = s.fsmState := rfl
@[simp] theorem clearTransaction_curCmd (s : State) : (clearTransaction s).curCmd = s.curCmd := rfl
@[simp] theorem clearTransaction_curArgc (s : State) : (clearTransaction s).curArgc = s.curArgc := rfl
@[simp] theorem clearTransaction_curArg (s : State) : (clearTransaction s).curArg = s.curArg := rfl
@[simp] theorem clearTransaction_expN (s : State) : (clearTransaction s).expN = s.expN := rfl
@[simp] theorem clearTransaction_expBytes (s : State) : (clearTransaction s).expBytes = s.expBytes := rfl
@[simp] theorem clearTransaction_txFrame (s : State) : (clearTransaction s).txFrame = [] := rfl
@[simp] theorem clearTransaction_rxBuf (s : State) : (clearTransaction s).rxBuf = [] := rfl
@[simp] theorem clearTransaction_rxLen (s : State) : (clearTransaction s).rxLen = 0 := rfl
@[simp] theorem clearTransaction_result (s : State) : (clearTransaction s).result = Vector.replicate 8 none := rfl
@[simp] theorem clearTransaction_resCnt (s : State) : (clearTransaction s).resCnt = 0 := rfl
@[simp] theorem clearTransaction_err (s : State) : (clearTransaction s).err = .none := rfl
@[simp] theorem clearTransaction_cfgRespFramed (s : State) : (clearTransaction s).cfgRespFramed = s.cfgRespFramed := rfl
@[simp] theorem clearTransaction_cfgTTimeout (s : State) : (clearTransaction s).cfgTTimeout = s.cfgTTimeout := rfl
@[simp] theorem clearTransaction_chanOpen (s : State) : (clearTransaction s).chanOpen = s.chanOpen := rfl
@[simp] theorem clearTransaction_txStream (s : State) : (clearTransaction s).txStream = s.txStream := rfl
@[simp] theorem clearTransaction_rxPending (s : State) : (clearTransaction s).rxPending = s.rxPending := rfl
@[simp] theorem clearTransaction_errInfo (s : State) : (clearTransaction s).errInfo = none := rfl
@[simp] theorem clearTransaction_hostOut (s : State) : (clearTransaction s).hostOut = s.hostOut := rfl
@[simp] theorem clearTransaction_held (s : State) : (clearTransaction s).held = s.held := rfl
@[simp] theorem clearTransaction_inputs (s : State) : (clearTransaction s).inputs = s.inputs := rfl
@[simp] theorem clearTransaction_txDraws (s : State) : (clearTransaction s).txDraws = s.txDraws := rfl
@[simp] theorem clearTransaction_rxDraws (s : State) : (clearTransaction s).rxDraws = s.rxDraws := rfl
@[simp] theorem clearTransaction_openDraws (s : State) : (clearTransaction s).openDraws = s.openDraws := rfl
@[simp] theorem clearTransaction_freeCtr (s : State) : (clearTransaction s).freeCtr = s.freeCtr := rfl

/-! ### `hold` -/

@[simp] theorem hold_fsmState (i : Instr) (s : State) : (hold i s).fsmState = s.fsmState := rfl
@[simp] theorem hold_curCmd (i : Instr) (s : State) : (hold i s).curCmd = s.curCmd := rfl
@[simp] theorem hold_curArgc (i : Instr) (s : State) : (hold i s).curArgc = s.curArgc := rfl
@[simp] theorem hold_curArg (i : Instr) (s : State) : (hold i s).curArg = s.curArg := rfl
@[simp] theorem hold_expN (i : Instr) (s : State) : (hold i s).expN = s.expN := rfl
@[simp] theorem hold_expBytes (i : Instr) (s : State) : (hold i s).expBytes = s.expBytes := rfl
@[simp] theorem hold_txFrame (i : Instr) (s : State) : (hold i s).txFrame = s.txFrame := rfl
@[simp] theorem hold_rxBuf (i : Instr) (s : State) : (hold i s).rxBuf = s.rxBuf := rfl
@[simp] theorem hold_rxLen (i : Instr) (s : State) : (hold i s).rxLen = s.rxLen := rfl
@[simp] theorem hold_result (i : Instr) (s : State) : (hold i s).result = s.result := rfl
@[simp] theorem hold_resCnt (i : Instr) (s : State) : (hold i s).resCnt = s.resCnt := rfl
@[simp] theorem hold_err (i : Instr) (s : State) : (hold i s).err = s.err := rfl
@[simp] theorem hold_cfgRespFramed (i : Instr) (s : State) : (hold i s).cfgRespFramed = s.cfgRespFramed := rfl
@[simp] theorem hold_cfgTTimeout (i : Instr) (s : State) : (hold i s).cfgTTimeout = s.cfgTTimeout := rfl
@[simp] theorem hold_chanOpen (i : Instr) (s : State) : (hold i s).chanOpen = s.chanOpen := rfl
@[simp] theorem hold_txStream (i : Instr) (s : State) : (hold i s).txStream = s.txStream := rfl
@[simp] theorem hold_rxPending (i : Instr) (s : State) : (hold i s).rxPending = s.rxPending := rfl
@[simp] theorem hold_errInfo (i : Instr) (s : State) : (hold i s).errInfo = s.errInfo := rfl
@[simp] theorem hold_hostOut (i : Instr) (s : State) : (hold i s).hostOut = s.hostOut := rfl
@[simp] theorem hold_held (i : Instr) (s : State) : (hold i s).held = s.held ++ [i] := rfl
@[simp] theorem hold_inputs (i : Instr) (s : State) : (hold i s).inputs = s.inputs := rfl
@[simp] theorem hold_txDraws (i : Instr) (s : State) : (hold i s).txDraws = s.txDraws := rfl
@[simp] theorem hold_rxDraws (i : Instr) (s : State) : (hold i s).rxDraws = s.rxDraws := rfl
@[simp] theorem hold_openDraws (i : Instr) (s : State) : (hold i s).openDraws = s.openDraws := rfl
@[simp] theorem hold_freeCtr (i : Instr) (s : State) : (hold i s).freeCtr = s.freeCtr := rfl

/-! ### `latch` -/

@[simp] theorem latch_fsmState (e : CmdEntry) (arg : Option Word) (s : State) : (latch e arg s).fsmState = .requestSent := rfl
@[simp] theorem latch_curCmd (e : CmdEntry) (arg : Option Word) (s : State) : (latch e arg s).curCmd = some e.id := rfl
@[simp] theorem latch_curArgc (e : CmdEntry) (arg : Option Word) (s : State) : (latch e arg s).curArgc = e.argc := rfl
@[simp] theorem latch_curArg (e : CmdEntry) (arg : Option Word) (s : State) : (latch e arg s).curArg = arg := rfl
@[simp] theorem latch_expN (e : CmdEntry) (arg : Option Word) (s : State) : (latch e arg s).expN = e.n := rfl
@[simp] theorem latch_expBytes (e : CmdEntry) (arg : Option Word) (s : State) : (latch e arg s).expBytes = Fin.ofNat 37 (responseBytes e.n s.cfgRespFramed) := rfl
@[simp] theorem latch_txFrame (e : CmdEntry) (arg : Option Word) (s : State) : (latch e arg s).txFrame = frame e.id (requestPayload e arg) := rfl
@[simp] theorem latch_rxBuf (e : CmdEntry) (arg : Option Word) (s : State) : (latch e arg s).rxBuf = s.rxBuf := rfl
@[simp] theorem latch_rxLen (e : CmdEntry) (arg : Option Word) (s : State) : (latch e arg s).rxLen = s.rxLen := rfl
@[simp] theorem latch_result (e : CmdEntry) (arg : Option Word) (s : State) : (latch e arg s).result = s.result := rfl
@[simp] theorem latch_resCnt (e : CmdEntry) (arg : Option Word) (s : State) : (latch e arg s).resCnt = s.resCnt := rfl
@[simp] theorem latch_err (e : CmdEntry) (arg : Option Word) (s : State) : (latch e arg s).err = s.err := rfl
@[simp] theorem latch_cfgRespFramed (e : CmdEntry) (arg : Option Word) (s : State) : (latch e arg s).cfgRespFramed = s.cfgRespFramed := rfl
@[simp] theorem latch_cfgTTimeout (e : CmdEntry) (arg : Option Word) (s : State) : (latch e arg s).cfgTTimeout = s.cfgTTimeout := rfl
@[simp] theorem latch_chanOpen (e : CmdEntry) (arg : Option Word) (s : State) : (latch e arg s).chanOpen = s.chanOpen := rfl
@[simp] theorem latch_txStream (e : CmdEntry) (arg : Option Word) (s : State) : (latch e arg s).txStream = s.txStream := rfl
@[simp] theorem latch_rxPending (e : CmdEntry) (arg : Option Word) (s : State) : (latch e arg s).rxPending = s.rxPending := rfl
@[simp] theorem latch_errInfo (e : CmdEntry) (arg : Option Word) (s : State) : (latch e arg s).errInfo = s.errInfo := rfl
@[simp] theorem latch_hostOut (e : CmdEntry) (arg : Option Word) (s : State) : (latch e arg s).hostOut = s.hostOut := rfl
@[simp] theorem latch_held (e : CmdEntry) (arg : Option Word) (s : State) : (latch e arg s).held = s.held := rfl
@[simp] theorem latch_inputs (e : CmdEntry) (arg : Option Word) (s : State) : (latch e arg s).inputs = s.inputs := rfl
@[simp] theorem latch_txDraws (e : CmdEntry) (arg : Option Word) (s : State) : (latch e arg s).txDraws = s.txDraws := rfl
@[simp] theorem latch_rxDraws (e : CmdEntry) (arg : Option Word) (s : State) : (latch e arg s).rxDraws = s.rxDraws := rfl
@[simp] theorem latch_openDraws (e : CmdEntry) (arg : Option Word) (s : State) : (latch e arg s).openDraws = s.openDraws := rfl
@[simp] theorem latch_freeCtr (e : CmdEntry) (arg : Option Word) (s : State) : (latch e arg s).freeCtr = s.freeCtr := rfl

/-! ### `envArrive` -/

@[simp] theorem envArrive_fsmState (bs : List Byte) (s : State) : (envArrive bs s).fsmState = s.fsmState := rfl
@[simp] theorem envArrive_curCmd (bs : List Byte) (s : State) : (envArrive bs s).curCmd = s.curCmd := rfl
@[simp] theorem envArrive_curArgc (bs : List Byte) (s : State) : (envArrive bs s).curArgc = s.curArgc := rfl
@[simp] theorem envArrive_curArg (bs : List Byte) (s : State) : (envArrive bs s).curArg = s.curArg := rfl
@[simp] theorem envArrive_expN (bs : List Byte) (s : State) : (envArrive bs s).expN = s.expN := rfl
@[simp] theorem envArrive_expBytes (bs : List Byte) (s : State) : (envArrive bs s).expBytes = s.expBytes := rfl
@[simp] theorem envArrive_txFrame (bs : List Byte) (s : State) : (envArrive bs s).txFrame = s.txFrame := rfl
@[simp] theorem envArrive_rxBuf (bs : List Byte) (s : State) : (envArrive bs s).rxBuf = s.rxBuf := rfl
@[simp] theorem envArrive_rxLen (bs : List Byte) (s : State) : (envArrive bs s).rxLen = s.rxLen := rfl
@[simp] theorem envArrive_result (bs : List Byte) (s : State) : (envArrive bs s).result = s.result := rfl
@[simp] theorem envArrive_resCnt (bs : List Byte) (s : State) : (envArrive bs s).resCnt = s.resCnt := rfl
@[simp] theorem envArrive_err (bs : List Byte) (s : State) : (envArrive bs s).err = s.err := rfl
@[simp] theorem envArrive_cfgRespFramed (bs : List Byte) (s : State) : (envArrive bs s).cfgRespFramed = s.cfgRespFramed := rfl
@[simp] theorem envArrive_cfgTTimeout (bs : List Byte) (s : State) : (envArrive bs s).cfgTTimeout = s.cfgTTimeout := rfl
@[simp] theorem envArrive_chanOpen (bs : List Byte) (s : State) : (envArrive bs s).chanOpen = s.chanOpen := rfl
@[simp] theorem envArrive_txStream (bs : List Byte) (s : State) : (envArrive bs s).txStream = s.txStream := rfl
@[simp] theorem envArrive_rxPending (bs : List Byte) (s : State) : (envArrive bs s).rxPending = s.rxPending ++ bs := rfl
@[simp] theorem envArrive_errInfo (bs : List Byte) (s : State) : (envArrive bs s).errInfo = s.errInfo := rfl
@[simp] theorem envArrive_hostOut (bs : List Byte) (s : State) : (envArrive bs s).hostOut = s.hostOut := rfl
@[simp] theorem envArrive_held (bs : List Byte) (s : State) : (envArrive bs s).held = s.held := rfl
@[simp] theorem envArrive_inputs (bs : List Byte) (s : State) : (envArrive bs s).inputs = s.inputs := rfl
@[simp] theorem envArrive_txDraws (bs : List Byte) (s : State) : (envArrive bs s).txDraws = s.txDraws := rfl
@[simp] theorem envArrive_rxDraws (bs : List Byte) (s : State) : (envArrive bs s).rxDraws = s.rxDraws := rfl
@[simp] theorem envArrive_openDraws (bs : List Byte) (s : State) : (envArrive bs s).openDraws = s.openDraws := rfl
@[simp] theorem envArrive_freeCtr (bs : List Byte) (s : State) : (envArrive bs s).freeCtr = s.freeCtr := rfl

/-! ### `envClose` -/

@[simp] theorem envClose_fsmState (s : State) : (envClose s).fsmState = s.fsmState := rfl
@[simp] theorem envClose_curCmd (s : State) : (envClose s).curCmd = s.curCmd := rfl
@[simp] theorem envClose_curArgc (s : State) : (envClose s).curArgc = s.curArgc := rfl
@[simp] theorem envClose_curArg (s : State) : (envClose s).curArg = s.curArg := rfl
@[simp] theorem envClose_expN (s : State) : (envClose s).expN = s.expN := rfl
@[simp] theorem envClose_expBytes (s : State) : (envClose s).expBytes = s.expBytes := rfl
@[simp] theorem envClose_txFrame (s : State) : (envClose s).txFrame = s.txFrame := rfl
@[simp] theorem envClose_rxBuf (s : State) : (envClose s).rxBuf = s.rxBuf := rfl
@[simp] theorem envClose_rxLen (s : State) : (envClose s).rxLen = s.rxLen := rfl
@[simp] theorem envClose_result (s : State) : (envClose s).result = s.result := rfl
@[simp] theorem envClose_resCnt (s : State) : (envClose s).resCnt = s.resCnt := rfl
@[simp] theorem envClose_err (s : State) : (envClose s).err = s.err := rfl
@[simp] theorem envClose_cfgRespFramed (s : State) : (envClose s).cfgRespFramed = s.cfgRespFramed := rfl
@[simp] theorem envClose_cfgTTimeout (s : State) : (envClose s).cfgTTimeout = s.cfgTTimeout := rfl
@[simp] theorem envClose_chanOpen (s : State) : (envClose s).chanOpen = false := rfl
@[simp] theorem envClose_txStream (s : State) : (envClose s).txStream = s.txStream := rfl
@[simp] theorem envClose_rxPending (s : State) : (envClose s).rxPending = s.rxPending := rfl
@[simp] theorem envClose_errInfo (s : State) : (envClose s).errInfo = s.errInfo := rfl
@[simp] theorem envClose_hostOut (s : State) : (envClose s).hostOut = s.hostOut := rfl
@[simp] theorem envClose_held (s : State) : (envClose s).held = s.held := rfl
@[simp] theorem envClose_inputs (s : State) : (envClose s).inputs = s.inputs := rfl
@[simp] theorem envClose_txDraws (s : State) : (envClose s).txDraws = s.txDraws := rfl
@[simp] theorem envClose_rxDraws (s : State) : (envClose s).rxDraws = s.rxDraws := rfl
@[simp] theorem envClose_openDraws (s : State) : (envClose s).openDraws = s.openDraws := rfl
@[simp] theorem envClose_freeCtr (s : State) : (envClose s).freeCtr = s.freeCtr := rfl

/-! ### `applyReset` -/

@[simp] theorem applyReset_fsmState (kept : Nat) (s : State) : (applyReset kept s).fsmState = State.reset.fsmState := rfl
@[simp] theorem applyReset_curCmd (kept : Nat) (s : State) : (applyReset kept s).curCmd = State.reset.curCmd := rfl
@[simp] theorem applyReset_curArgc (kept : Nat) (s : State) : (applyReset kept s).curArgc = State.reset.curArgc := rfl
@[simp] theorem applyReset_curArg (kept : Nat) (s : State) : (applyReset kept s).curArg = State.reset.curArg := rfl
@[simp] theorem applyReset_expN (kept : Nat) (s : State) : (applyReset kept s).expN = State.reset.expN := rfl
@[simp] theorem applyReset_expBytes (kept : Nat) (s : State) : (applyReset kept s).expBytes = State.reset.expBytes := rfl
@[simp] theorem applyReset_txFrame (kept : Nat) (s : State) : (applyReset kept s).txFrame = State.reset.txFrame := rfl
@[simp] theorem applyReset_rxBuf (kept : Nat) (s : State) : (applyReset kept s).rxBuf = State.reset.rxBuf := rfl
@[simp] theorem applyReset_rxLen (kept : Nat) (s : State) : (applyReset kept s).rxLen = State.reset.rxLen := rfl
@[simp] theorem applyReset_result (kept : Nat) (s : State) : (applyReset kept s).result = State.reset.result := rfl
@[simp] theorem applyReset_resCnt (kept : Nat) (s : State) : (applyReset kept s).resCnt = State.reset.resCnt := rfl
@[simp] theorem applyReset_err (kept : Nat) (s : State) : (applyReset kept s).err = State.reset.err := rfl
@[simp] theorem applyReset_cfgRespFramed (kept : Nat) (s : State) : (applyReset kept s).cfgRespFramed = State.reset.cfgRespFramed := rfl
@[simp] theorem applyReset_cfgTTimeout (kept : Nat) (s : State) : (applyReset kept s).cfgTTimeout = State.reset.cfgTTimeout := rfl
@[simp] theorem applyReset_chanOpen (kept : Nat) (s : State) : (applyReset kept s).chanOpen = State.reset.chanOpen := rfl
@[simp] theorem applyReset_txStream (kept : Nat) (s : State) : (applyReset kept s).txStream = s.txStream ++ (if s.fsmState = .requestSent then s.txFrame.take kept else []) := rfl
@[simp] theorem applyReset_rxPending (kept : Nat) (s : State) : (applyReset kept s).rxPending = s.rxPending := rfl
@[simp] theorem applyReset_errInfo (kept : Nat) (s : State) : (applyReset kept s).errInfo = State.reset.errInfo := rfl
@[simp] theorem applyReset_hostOut (kept : Nat) (s : State) : (applyReset kept s).hostOut = s.hostOut := rfl
@[simp] theorem applyReset_held (kept : Nat) (s : State) : (applyReset kept s).held = s.held := rfl
@[simp] theorem applyReset_inputs (kept : Nat) (s : State) : (applyReset kept s).inputs = s.inputs := rfl
@[simp] theorem applyReset_txDraws (kept : Nat) (s : State) : (applyReset kept s).txDraws = s.txDraws := rfl
@[simp] theorem applyReset_rxDraws (kept : Nat) (s : State) : (applyReset kept s).rxDraws = s.rxDraws := rfl
@[simp] theorem applyReset_openDraws (kept : Nat) (s : State) : (applyReset kept s).openDraws = s.openDraws := rfl
@[simp] theorem applyReset_freeCtr (kept : Nat) (s : State) : (applyReset kept s).freeCtr = s.freeCtr := rfl

/-! ### `takeTx`: only the draws and the free-value counter change -/

@[simp] theorem takeTx_fsmState (s : State) : (takeTx s).2.fsmState = s.fsmState := by unfold takeTx; split <;> rfl
@[simp] theorem takeTx_curCmd (s : State) : (takeTx s).2.curCmd = s.curCmd := by unfold takeTx; split <;> rfl
@[simp] theorem takeTx_curArgc (s : State) : (takeTx s).2.curArgc = s.curArgc := by unfold takeTx; split <;> rfl
@[simp] theorem takeTx_curArg (s : State) : (takeTx s).2.curArg = s.curArg := by unfold takeTx; split <;> rfl
@[simp] theorem takeTx_expN (s : State) : (takeTx s).2.expN = s.expN := by unfold takeTx; split <;> rfl
@[simp] theorem takeTx_expBytes (s : State) : (takeTx s).2.expBytes = s.expBytes := by unfold takeTx; split <;> rfl
@[simp] theorem takeTx_txFrame (s : State) : (takeTx s).2.txFrame = s.txFrame := by unfold takeTx; split <;> rfl
@[simp] theorem takeTx_rxBuf (s : State) : (takeTx s).2.rxBuf = s.rxBuf := by unfold takeTx; split <;> rfl
@[simp] theorem takeTx_rxLen (s : State) : (takeTx s).2.rxLen = s.rxLen := by unfold takeTx; split <;> rfl
@[simp] theorem takeTx_result (s : State) : (takeTx s).2.result = s.result := by unfold takeTx; split <;> rfl
@[simp] theorem takeTx_resCnt (s : State) : (takeTx s).2.resCnt = s.resCnt := by unfold takeTx; split <;> rfl
@[simp] theorem takeTx_err (s : State) : (takeTx s).2.err = s.err := by unfold takeTx; split <;> rfl
@[simp] theorem takeTx_cfgRespFramed (s : State) : (takeTx s).2.cfgRespFramed = s.cfgRespFramed := by unfold takeTx; split <;> rfl
@[simp] theorem takeTx_cfgTTimeout (s : State) : (takeTx s).2.cfgTTimeout = s.cfgTTimeout := by unfold takeTx; split <;> rfl
@[simp] theorem takeTx_chanOpen (s : State) : (takeTx s).2.chanOpen = s.chanOpen := by unfold takeTx; split <;> rfl
@[simp] theorem takeTx_txStream (s : State) : (takeTx s).2.txStream = s.txStream := by unfold takeTx; split <;> rfl
@[simp] theorem takeTx_rxPending (s : State) : (takeTx s).2.rxPending = s.rxPending := by unfold takeTx; split <;> rfl
@[simp] theorem takeTx_errInfo (s : State) : (takeTx s).2.errInfo = s.errInfo := by unfold takeTx; split <;> rfl
@[simp] theorem takeTx_hostOut (s : State) : (takeTx s).2.hostOut = s.hostOut := by unfold takeTx; split <;> rfl
@[simp] theorem takeTx_held (s : State) : (takeTx s).2.held = s.held := by unfold takeTx; split <;> rfl
@[simp] theorem takeTx_inputs (s : State) : (takeTx s).2.inputs = s.inputs := by unfold takeTx; split <;> rfl
@[simp] theorem takeTx_rxDraws (s : State) : (takeTx s).2.rxDraws = s.rxDraws := by unfold takeTx; split <;> rfl
@[simp] theorem takeTx_openDraws (s : State) : (takeTx s).2.openDraws = s.openDraws := by unfold takeTx; split <;> rfl

/-! ### `takeRx`: only the draws and the free-value counter change -/

@[simp] theorem takeRx_fsmState (s : State) : (takeRx s).2.fsmState = s.fsmState := by unfold takeRx; split <;> rfl
@[simp] theorem takeRx_curCmd (s : State) : (takeRx s).2.curCmd = s.curCmd := by unfold takeRx; split <;> rfl
@[simp] theorem takeRx_curArgc (s : State) : (takeRx s).2.curArgc = s.curArgc := by unfold takeRx; split <;> rfl
@[simp] theorem takeRx_curArg (s : State) : (takeRx s).2.curArg = s.curArg := by unfold takeRx; split <;> rfl
@[simp] theorem takeRx_expN (s : State) : (takeRx s).2.expN = s.expN := by unfold takeRx; split <;> rfl
@[simp] theorem takeRx_expBytes (s : State) : (takeRx s).2.expBytes = s.expBytes := by unfold takeRx; split <;> rfl
@[simp] theorem takeRx_txFrame (s : State) : (takeRx s).2.txFrame = s.txFrame := by unfold takeRx; split <;> rfl
@[simp] theorem takeRx_rxBuf (s : State) : (takeRx s).2.rxBuf = s.rxBuf := by unfold takeRx; split <;> rfl
@[simp] theorem takeRx_rxLen (s : State) : (takeRx s).2.rxLen = s.rxLen := by unfold takeRx; split <;> rfl
@[simp] theorem takeRx_result (s : State) : (takeRx s).2.result = s.result := by unfold takeRx; split <;> rfl
@[simp] theorem takeRx_resCnt (s : State) : (takeRx s).2.resCnt = s.resCnt := by unfold takeRx; split <;> rfl
@[simp] theorem takeRx_err (s : State) : (takeRx s).2.err = s.err := by unfold takeRx; split <;> rfl
@[simp] theorem takeRx_cfgRespFramed (s : State) : (takeRx s).2.cfgRespFramed = s.cfgRespFramed := by unfold takeRx; split <;> rfl
@[simp] theorem takeRx_cfgTTimeout (s : State) : (takeRx s).2.cfgTTimeout = s.cfgTTimeout := by unfold takeRx; split <;> rfl
@[simp] theorem takeRx_chanOpen (s : State) : (takeRx s).2.chanOpen = s.chanOpen := by unfold takeRx; split <;> rfl
@[simp] theorem takeRx_txStream (s : State) : (takeRx s).2.txStream = s.txStream := by unfold takeRx; split <;> rfl
@[simp] theorem takeRx_rxPending (s : State) : (takeRx s).2.rxPending = s.rxPending := by unfold takeRx; split <;> rfl
@[simp] theorem takeRx_errInfo (s : State) : (takeRx s).2.errInfo = s.errInfo := by unfold takeRx; split <;> rfl
@[simp] theorem takeRx_hostOut (s : State) : (takeRx s).2.hostOut = s.hostOut := by unfold takeRx; split <;> rfl
@[simp] theorem takeRx_held (s : State) : (takeRx s).2.held = s.held := by unfold takeRx; split <;> rfl
@[simp] theorem takeRx_inputs (s : State) : (takeRx s).2.inputs = s.inputs := by unfold takeRx; split <;> rfl
@[simp] theorem takeRx_txDraws (s : State) : (takeRx s).2.txDraws = s.txDraws := by unfold takeRx; split <;> rfl
@[simp] theorem takeRx_openDraws (s : State) : (takeRx s).2.openDraws = s.openDraws := by unfold takeRx; split <;> rfl

/-! ### `takeOpen`: only the draws and the free-value counter change -/

@[simp] theorem takeOpen_fsmState (s : State) : (takeOpen s).2.fsmState = s.fsmState := by unfold takeOpen; split <;> rfl
@[simp] theorem takeOpen_curCmd (s : State) : (takeOpen s).2.curCmd = s.curCmd := by unfold takeOpen; split <;> rfl
@[simp] theorem takeOpen_curArgc (s : State) : (takeOpen s).2.curArgc = s.curArgc := by unfold takeOpen; split <;> rfl
@[simp] theorem takeOpen_curArg (s : State) : (takeOpen s).2.curArg = s.curArg := by unfold takeOpen; split <;> rfl
@[simp] theorem takeOpen_expN (s : State) : (takeOpen s).2.expN = s.expN := by unfold takeOpen; split <;> rfl
@[simp] theorem takeOpen_expBytes (s : State) : (takeOpen s).2.expBytes = s.expBytes := by unfold takeOpen; split <;> rfl
@[simp] theorem takeOpen_txFrame (s : State) : (takeOpen s).2.txFrame = s.txFrame := by unfold takeOpen; split <;> rfl
@[simp] theorem takeOpen_rxBuf (s : State) : (takeOpen s).2.rxBuf = s.rxBuf := by unfold takeOpen; split <;> rfl
@[simp] theorem takeOpen_rxLen (s : State) : (takeOpen s).2.rxLen = s.rxLen := by unfold takeOpen; split <;> rfl
@[simp] theorem takeOpen_result (s : State) : (takeOpen s).2.result = s.result := by unfold takeOpen; split <;> rfl
@[simp] theorem takeOpen_resCnt (s : State) : (takeOpen s).2.resCnt = s.resCnt := by unfold takeOpen; split <;> rfl
@[simp] theorem takeOpen_err (s : State) : (takeOpen s).2.err = s.err := by unfold takeOpen; split <;> rfl
@[simp] theorem takeOpen_cfgRespFramed (s : State) : (takeOpen s).2.cfgRespFramed = s.cfgRespFramed := by unfold takeOpen; split <;> rfl
@[simp] theorem takeOpen_cfgTTimeout (s : State) : (takeOpen s).2.cfgTTimeout = s.cfgTTimeout := by unfold takeOpen; split <;> rfl
@[simp] theorem takeOpen_chanOpen (s : State) : (takeOpen s).2.chanOpen = s.chanOpen := by unfold takeOpen; split <;> rfl
@[simp] theorem takeOpen_txStream (s : State) : (takeOpen s).2.txStream = s.txStream := by unfold takeOpen; split <;> rfl
@[simp] theorem takeOpen_rxPending (s : State) : (takeOpen s).2.rxPending = s.rxPending := by unfold takeOpen; split <;> rfl
@[simp] theorem takeOpen_errInfo (s : State) : (takeOpen s).2.errInfo = s.errInfo := by unfold takeOpen; split <;> rfl
@[simp] theorem takeOpen_hostOut (s : State) : (takeOpen s).2.hostOut = s.hostOut := by unfold takeOpen; split <;> rfl
@[simp] theorem takeOpen_held (s : State) : (takeOpen s).2.held = s.held := by unfold takeOpen; split <;> rfl
@[simp] theorem takeOpen_inputs (s : State) : (takeOpen s).2.inputs = s.inputs := by unfold takeOpen; split <;> rfl
@[simp] theorem takeOpen_txDraws (s : State) : (takeOpen s).2.txDraws = s.txDraws := by unfold takeOpen; split <;> rfl
@[simp] theorem takeOpen_rxDraws (s : State) : (takeOpen s).2.rxDraws = s.rxDraws := by unfold takeOpen; split <;> rfl

/-! ### `txWrite`: beside the draws, only `TX_STREAM` changes -/

@[simp] theorem txWrite_fsmState (bs : List Byte) (s : State) : (txWrite bs s).2.fsmState = s.fsmState := by
  unfold txWrite; dsimp only; split <;> simp
@[simp] theorem txWrite_curCmd (bs : List Byte) (s : State) : (txWrite bs s).2.curCmd = s.curCmd := by
  unfold txWrite; dsimp only; split <;> simp
@[simp] theorem txWrite_curArgc (bs : List Byte) (s : State) : (txWrite bs s).2.curArgc = s.curArgc := by
  unfold txWrite; dsimp only; split <;> simp
@[simp] theorem txWrite_curArg (bs : List Byte) (s : State) : (txWrite bs s).2.curArg = s.curArg := by
  unfold txWrite; dsimp only; split <;> simp
@[simp] theorem txWrite_expN (bs : List Byte) (s : State) : (txWrite bs s).2.expN = s.expN := by
  unfold txWrite; dsimp only; split <;> simp
@[simp] theorem txWrite_expBytes (bs : List Byte) (s : State) : (txWrite bs s).2.expBytes = s.expBytes := by
  unfold txWrite; dsimp only; split <;> simp
@[simp] theorem txWrite_txFrame (bs : List Byte) (s : State) : (txWrite bs s).2.txFrame = s.txFrame := by
  unfold txWrite; dsimp only; split <;> simp
@[simp] theorem txWrite_rxBuf (bs : List Byte) (s : State) : (txWrite bs s).2.rxBuf = s.rxBuf := by
  unfold txWrite; dsimp only; split <;> simp
@[simp] theorem txWrite_rxLen (bs : List Byte) (s : State) : (txWrite bs s).2.rxLen = s.rxLen := by
  unfold txWrite; dsimp only; split <;> simp
@[simp] theorem txWrite_result (bs : List Byte) (s : State) : (txWrite bs s).2.result = s.result := by
  unfold txWrite; dsimp only; split <;> simp
@[simp] theorem txWrite_resCnt (bs : List Byte) (s : State) : (txWrite bs s).2.resCnt = s.resCnt := by
  unfold txWrite; dsimp only; split <;> simp
@[simp] theorem txWrite_err (bs : List Byte) (s : State) : (txWrite bs s).2.err = s.err := by
  unfold txWrite; dsimp only; split <;> simp
@[simp] theorem txWrite_cfgRespFramed (bs : List Byte) (s : State) : (txWrite bs s).2.cfgRespFramed = s.cfgRespFramed := by
  unfold txWrite; dsimp only; split <;> simp
@[simp] theorem txWrite_cfgTTimeout (bs : List Byte) (s : State) : (txWrite bs s).2.cfgTTimeout = s.cfgTTimeout := by
  unfold txWrite; dsimp only; split <;> simp
@[simp] theorem txWrite_chanOpen (bs : List Byte) (s : State) : (txWrite bs s).2.chanOpen = s.chanOpen := by
  unfold txWrite; dsimp only; split <;> simp
@[simp] theorem txWrite_rxPending (bs : List Byte) (s : State) : (txWrite bs s).2.rxPending = s.rxPending := by
  unfold txWrite; dsimp only; split <;> simp
@[simp] theorem txWrite_errInfo (bs : List Byte) (s : State) : (txWrite bs s).2.errInfo = s.errInfo := by
  unfold txWrite; dsimp only; split <;> simp
@[simp] theorem txWrite_hostOut (bs : List Byte) (s : State) : (txWrite bs s).2.hostOut = s.hostOut := by
  unfold txWrite; dsimp only; split <;> simp
@[simp] theorem txWrite_held (bs : List Byte) (s : State) : (txWrite bs s).2.held = s.held := by
  unfold txWrite; dsimp only; split <;> simp
@[simp] theorem txWrite_inputs (bs : List Byte) (s : State) : (txWrite bs s).2.inputs = s.inputs := by
  unfold txWrite; dsimp only; split <;> simp
@[simp] theorem txWrite_rxDraws (bs : List Byte) (s : State) : (txWrite bs s).2.rxDraws = s.rxDraws := by
  unfold txWrite; dsimp only; split <;> simp
@[simp] theorem txWrite_openDraws (bs : List Byte) (s : State) : (txWrite bs s).2.openDraws = s.openDraws := by
  unfold txWrite; dsimp only; split <;> simp

/-! ### `rxRead`: beside the draws, only `RX_PENDING` and `CHAN_OPEN` change -/

@[simp] theorem rxRead_fsmState (n : Nat) (s : State) : (rxRead n s).2.fsmState = s.fsmState := by
  unfold rxRead; dsimp only; split <;> simp
@[simp] theorem rxRead_curCmd (n : Nat) (s : State) : (rxRead n s).2.curCmd = s.curCmd := by
  unfold rxRead; dsimp only; split <;> simp
@[simp] theorem rxRead_curArgc (n : Nat) (s : State) : (rxRead n s).2.curArgc = s.curArgc := by
  unfold rxRead; dsimp only; split <;> simp
@[simp] theorem rxRead_curArg (n : Nat) (s : State) : (rxRead n s).2.curArg = s.curArg := by
  unfold rxRead; dsimp only; split <;> simp
@[simp] theorem rxRead_expN (n : Nat) (s : State) : (rxRead n s).2.expN = s.expN := by
  unfold rxRead; dsimp only; split <;> simp
@[simp] theorem rxRead_expBytes (n : Nat) (s : State) : (rxRead n s).2.expBytes = s.expBytes := by
  unfold rxRead; dsimp only; split <;> simp
@[simp] theorem rxRead_txFrame (n : Nat) (s : State) : (rxRead n s).2.txFrame = s.txFrame := by
  unfold rxRead; dsimp only; split <;> simp
@[simp] theorem rxRead_rxBuf (n : Nat) (s : State) : (rxRead n s).2.rxBuf = s.rxBuf := by
  unfold rxRead; dsimp only; split <;> simp
@[simp] theorem rxRead_rxLen (n : Nat) (s : State) : (rxRead n s).2.rxLen = s.rxLen := by
  unfold rxRead; dsimp only; split <;> simp
@[simp] theorem rxRead_result (n : Nat) (s : State) : (rxRead n s).2.result = s.result := by
  unfold rxRead; dsimp only; split <;> simp
@[simp] theorem rxRead_resCnt (n : Nat) (s : State) : (rxRead n s).2.resCnt = s.resCnt := by
  unfold rxRead; dsimp only; split <;> simp
@[simp] theorem rxRead_err (n : Nat) (s : State) : (rxRead n s).2.err = s.err := by
  unfold rxRead; dsimp only; split <;> simp
@[simp] theorem rxRead_cfgRespFramed (n : Nat) (s : State) : (rxRead n s).2.cfgRespFramed = s.cfgRespFramed := by
  unfold rxRead; dsimp only; split <;> simp
@[simp] theorem rxRead_cfgTTimeout (n : Nat) (s : State) : (rxRead n s).2.cfgTTimeout = s.cfgTTimeout := by
  unfold rxRead; dsimp only; split <;> simp
@[simp] theorem rxRead_txStream (n : Nat) (s : State) : (rxRead n s).2.txStream = s.txStream := by
  unfold rxRead; dsimp only; split <;> simp
@[simp] theorem rxRead_errInfo (n : Nat) (s : State) : (rxRead n s).2.errInfo = s.errInfo := by
  unfold rxRead; dsimp only; split <;> simp
@[simp] theorem rxRead_hostOut (n : Nat) (s : State) : (rxRead n s).2.hostOut = s.hostOut := by
  unfold rxRead; dsimp only; split <;> simp
@[simp] theorem rxRead_held (n : Nat) (s : State) : (rxRead n s).2.held = s.held := by
  unfold rxRead; dsimp only; split <;> simp
@[simp] theorem rxRead_inputs (n : Nat) (s : State) : (rxRead n s).2.inputs = s.inputs := by
  unfold rxRead; dsimp only; split <;> simp
@[simp] theorem rxRead_txDraws (n : Nat) (s : State) : (rxRead n s).2.txDraws = s.txDraws := by
  unfold rxRead; dsimp only; split <;> simp
@[simp] theorem rxRead_openDraws (n : Nat) (s : State) : (rxRead n s).2.openDraws = s.openDraws := by
  unfold rxRead; dsimp only; split <;> simp

end Sys2Proof.Machine
end

