-- ==== Sys2Proof/Laws/Ops.lean ====
section
/-! SUPPORT. For each shared operation one lemma that says everything it can do; later proofs cite it and never unfold the operation. -/

namespace Sys2Proof.Machine

/-- The lengths that `Fin.ofNat` stores for a response are the lengths themselves. -/
theorem responseBytes_le (n : FloatCount) (framed : Bool) : responseBytes n framed ≤ 36 := by
  cases n <;> cases framed <;> decide

@[simp] theorem responseBytes_mod (n : FloatCount) (framed : Bool) :
    responseBytes n framed % 37 = responseBytes n framed := by
  have := responseBytes_le n framed; omega

@[simp] theorem floatCount_mod (n : FloatCount) : n.toNat % 9 = n.toNat := by
  have := floatCount_le n; omega

theorem ofNat_responseBytes (n : FloatCount) (framed : Bool) :
    (Fin.ofNat 37 (responseBytes n framed)).val = responseBytes n framed := responseBytes_mod n framed

theorem ofNat_floatCount (n : FloatCount) : (Fin.ofNat 9 n.toNat).val = n.toNat := floatCount_mod n

/-! ### Acceptance -/

theorem present_idle {i : Instr} {f : State → State} {s : State} (h : s.fsmState = .idle) :
    present i f s = .next (f s) := by simp [present, h]

theorem present_busy {i : Instr} {f : State → State} {s : State} (h : s.fsmState ≠ .idle) :
    present i f s = .next (hold i s) := by simp [present, h]

/-- What a successful pre-send check says (R161). -/
theorem presendCheck_ok {cmd : Int} {args : List Int} {o : Bool} {e : CmdEntry} {arg : Option Word}
    (h : presendCheck cmd args o = .ok (e, arg)) :
    cmdEntry? e.id = some e ∧ cmd = e.id.toNat ∧ args.length = e.argc.val ∧ o = true ∧
      (arg.isSome ↔ e.argc = 1) ∧ ∀ a ∈ args, toWord? a = arg := by
  unfold presendCheck at h
  split at h
  · cases h
  · rename_i c hc
    have hcmd : cmd = c.toNat := toByte?_eq_some.mp hc
    split at h
    · cases h
    · rename_i e' he
      have hid := (cmdEntry?_some he).2
      split at h
      · cases h
      · rename_i hlen
        have hlen : args.length = e'.argc.val := by simpa using hlen
        split at h
        · split at h
          · cases h
            exact ⟨by rw [hid]; exact he, by rw [hid]; exact hcmd, hlen, by assumption,
              by have h0 : e.argc = 0 := Fin.ext (by simpa using hlen.symm)
                 simp [h0], by simp⟩
          · cases h
        · rename_i a as hne
          have has : as = [] := by
            have := e'.argc.isLt
            simp at hlen
            exact List.length_eq_zero_iff.mp (by omega)
          split at h
          · cases h
          · rename_i w hw
            split at h
            · cases h
              exact ⟨by rw [hid]; exact he, by rw [hid]; exact hcmd, hlen, by assumption,
                by have h1 : e.argc = 1 := Fin.ext (by simpa [has] using hlen.symm)
                   simp [h1], by simp [has, hw]⟩
            · cases h

/-- Everything acceptance can do (R160-R162): latch a checked command, or raise its first failing check. -/
theorem accept_cases (cmd : Int) (args : List Int) (s : State) :
    (∃ e arg, presendCheck cmd args s.chanOpen = .ok (e, arg) ∧ accept cmd args s = latch e arg (clearTransaction s)) ∨
    (∃ info, presendCheck cmd args s.chanOpen = .error info ∧ accept cmd args s = raise info (clearTransaction s)) := by
  unfold accept
  cases h : presendCheck cmd args s.chanOpen with
  | ok p => exact .inl ⟨p.1, p.2, rfl, rfl⟩
  | error info => exact .inr ⟨info, rfl, rfl⟩

/-! ### Transport -/

/-- Everything `TxWrite` can do to `TX_STREAM` (R62): all the bytes on success, a drawn part on failure. -/
theorem txWrite_cases (bs : List Byte) (s : State) :
    ((txWrite bs s).1 = true ∧ s.chanOpen = true ∧ (txWrite bs s).2.txStream = s.txStream ++ bs) ∨
    ((txWrite bs s).1 = false ∧ ∃ k, (txWrite bs s).2.txStream = s.txStream ++ bs.take k) := by
  unfold txWrite
  dsimp only
  split
  · rename_i h
    simp at h
    exact .inl ⟨rfl, h.1, by simp⟩
  · exact .inr ⟨rfl, (takeTx s).1.kept, by simp⟩

/-- Everything `RxRead` can do (R63): take bytes from the front of `RX_PENDING`, at most `n`, or close the channel. -/
theorem rxRead_cases (n : Nat) (s : State) :
    (∃ k, k ≤ n ∧ s.chanOpen = true ∧ (rxRead n s).1 = some (s.rxPending.take k) ∧
      (rxRead n s).2.rxPending = s.rxPending.drop k ∧ (rxRead n s).2.chanOpen = true) ∨
    ((rxRead n s).1 = none ∧ (rxRead n s).2.rxPending = s.rxPending ∧ (rxRead n s).2.chanOpen = false) := by
  unfold rxRead
  dsimp only
  split
  · rename_i k h1 h2
    exact .inl ⟨min k n, by omega, h1, by simp, by simp, by simpa using h1⟩
  · exact .inr ⟨rfl, by simp, rfl⟩

/-! ### The block's own steps -/

/-- Everything the write step can do (R163). -/
theorem writeStep_cases (s : State) :
    ((txWrite s.txFrame s).1 = true ∧
      writeStep s = { (txWrite s.txFrame s).2 with fsmState := .awaitingResponse }) ∨
    ((txWrite s.txFrame s).1 = false ∧ writeStep s = raise .writeFailed (txWrite s.txFrame s).2) := by
  unfold writeStep
  split
  · rename_i t h; exact .inl ⟨by rw [h], by rw [h]⟩
  · rename_i t h; exact .inr ⟨by rw [h], by rw [h]⟩

/-- Everything the decode step can do when it answers a next state (R165). -/
theorem decodeStep_next {p : List Byte} {s t : State} (h : decodeStep p s = .next t) :
    ∃ ws, wordsOf? p = some ws ∧ ws.length = s.expN.toNat ∧
      t = { s with result := mergeResult ws s.result, resCnt := Fin.ofNat 9 s.expN.toNat, fsmState := .decoded } := by
  unfold decodeStep at h
  split at h
  · rename_i ws hw
    split at h
    · rename_i hl; cases h; exact ⟨ws, hw, hl, rfl⟩
    · cases h
  · cases h

/-- Everything the checks of a response can do when they answer a next state (R164): raise an error with the bytes recorded, or decode. -/
theorem checkResponse_next {r : List Byte} {s t : State} (h : checkResponse r s = .next t) :
    (∃ info, t = raise info { s with rxBuf := r, rxLen := Fin.ofNat 37 r.length }) ∨
    (s.expBytes.val ≤ r.length ∧
      ∃ ws, ws.length = s.expN.toNat ∧ t = { s with
        rxBuf := r, rxLen := Fin.ofNat 37 r.length, result := mergeResult ws s.result, resCnt := Fin.ofNat 9 s.expN.toNat,
        fsmState := .decoded }) := by
  unfold checkResponse at h
  dsimp only at h
  split at h
  · cases h; exact .inl ⟨_, rfl⟩
  · rename_i hlen
    split at h
    · split at h
      · cases h
      · split at h
        · cases h; exact .inl ⟨_, rfl⟩
        · obtain ⟨ws, -, hl, rfl⟩ := decodeStep_next h
          exact .inr ⟨by omega, ws, hl, rfl⟩
      · cases h
    · obtain ⟨ws, -, hl, rfl⟩ := decodeStep_next h
      exact .inr ⟨by omega, ws, hl, rfl⟩

/-- Everything the read step can do when it answers a next state (R164, R165). -/
theorem readStep_next {s t : State} (h : readStep s = .next t) :
    s.expBytes.val = responseBytes s.expN s.cfgRespFramed ∧
    (((rxRead s.expBytes.val s).1 = none ∧ t = raise .closed (rxRead s.expBytes.val s).2) ∨
     (∃ r, (rxRead s.expBytes.val s).1 = some r ∧ checkResponse r (rxRead s.expBytes.val s).2 = .next t)) := by
  unfold readStep at h
  split at h
  · cases h
  · rename_i hb
    refine ⟨by simpa using hb, ?_⟩
    split at h
    · rename_i u hr; cases h; exact .inl ⟨by rw [hr], by rw [hr]⟩
    · rename_i r u hr; exact .inr ⟨r, by rw [hr], by rw [hr]; exact h⟩

/-- Everything delivery of a decoded transaction can do when it answers a next state (R166). -/
theorem deliverDecoded_next {s t : State} (h : deliverDecoded s = .next t) :
    ∃ c e ws, s.curCmd = some c ∧ cmdEntry? c = some e ∧ resultWords s.resCnt.val s.result = some ws ∧
      ((∃ v, post s.freeCtr e.post ws = some (.ok v) ∧
        t = finish (giveHost (.value v ws) { s with freeCtr := s.freeCtr + ws.length })) ∨
       (∃ x, post s.freeCtr e.post ws = some (.error x) ∧
        t = finish (giveHost (.err .nonFiniteIntegerError (.nonFinite x))
          { s with err := .nonFiniteIntegerError, freeCtr := s.freeCtr + ws.length }))) := by
  unfold deliverDecoded at h
  split at h
  · rename_i c ws hc hw
    split at h
    · cases h
    · rename_i e he
      refine ⟨c, e, ws, hc, he, hw, ?_⟩
      split at h
      · cases h
      · rename_i v hv; cases h; exact .inl ⟨v, hv, rfl⟩
      · rename_i x hx; cases h; exact .inr ⟨x, hx, rfl⟩
  · cases h

/-- Everything delivery of a failed transaction can do when it answers a next state (R166). -/
theorem deliverFailed_next {s t : State} (h : deliverFailed s = .next t) :
    ∃ info, s.errInfo = some info ∧ t = finish (giveHost (.err s.err info) s) := by
  unfold deliverFailed at h
  split at h
  · rename_i info hi; cases h; exact ⟨info, hi, rfl⟩
  · cases h

/-! ### One step -/

/-- An operation of the host port whose meaning is an `EXEC`. -/
theorem exec_of_execOperands {i : Instr} {cmd : Int} {args : List Int} (h : i.execOperands? = some (cmd, args)) (s : State) :
    exec i s = present i.canon (accept cmd args) s := by
  cases i <;> simp_all [Instr.execOperands?, exec, Instr.canon, execExec] <;>
    obtain ⟨rfl, rfl⟩ := h <;> rfl

/-- Everything an operation can do (R130, R160, R167, R168): hand a result over, be held, or, in `IDLE`, be accepted as `EXEC`, `OPEN` or
`CLOSE`. -/
theorem exec_cases (i : Instr) (s : State) :
    (∃ r, exec i s = .next (giveHost r s)) ∨
    (∃ j, s.fsmState ≠ .idle ∧ exec i s = .next (hold j s)) ∨
    (∃ cmd args, s.fsmState = .idle ∧ i.execOperands? = some (cmd, args) ∧ exec i s = .next (accept cmd args s)) ∨
    (∃ f n, s.fsmState = .idle ∧ exec i s = .next (openEffect f n s)) ∨
    (s.fsmState = .idle ∧ exec i s = .next (closeEffect s)) := by
  have key : ∀ cmd args, i.execOperands? = some (cmd, args) →
      (∃ j, s.fsmState ≠ .idle ∧ exec i s = .next (hold j s)) ∨
      (∃ cmd args, s.fsmState = .idle ∧ i.execOperands? = some (cmd, args) ∧ exec i s = .next (accept cmd args s)) := by
    intro cmd args h
    rw [exec_of_execOperands h]
    by_cases hs : s.fsmState = .idle
    · exact .inr ⟨cmd, args, hs, h, present_idle hs⟩
    · exact .inl ⟨_, hs, present_busy hs⟩
  cases hi : i.execOperands? with
  | some p =>
    obtain h | h := key p.1 p.2 hi
    · exact .inr (.inl h)
    · rw [hi] at h; exact .inr (.inr (.inl h))
  | none =>
    cases i <;> simp [Instr.execOperands?] at hi
    case encode cmd p => exact .inl ⟨_, rfl⟩
    case encodeNp cmd => exact .inl ⟨_, rfl⟩
    case decodeFloats raw n => exact .inl ⟨_, rfl⟩
    case decodeFrame f => exact .inl ⟨_, rfl⟩
    case openChan f n =>
      by_cases hs : s.fsmState = .idle
      · exact .inr (.inr (.inr (.inl ⟨f, n, hs, present_idle hs⟩)))
      · exact .inr (.inl ⟨_, hs, present_busy hs⟩)
    case closeChan =>
      by_cases hs : s.fsmState = .idle
      · exact .inr (.inr (.inr (.inr ⟨hs, present_idle hs⟩)))
      · exact .inr (.inl ⟨_, hs, present_busy hs⟩)

/-- An operation that never waits hands one result over, the same in every state (R130). -/
theorem exec_of_not_waits {i : Instr} (h : opWaits i = false) : ∃ r, ∀ s : State, exec i s = .next (giveHost r s) := by
  cases i <;> first | exact ⟨_, fun _ => rfl⟩ | cases h

/-- Everything the block's own move can be: the oldest held operation runs in `IDLE`, or the block takes its own step. -/
theorem ownMove_cases (s : State) :
    (∃ i is, s.fsmState = .idle ∧ s.held = i :: is ∧ ownMove s = .run i { s with held := is }) ∨
    ((s.fsmState ≠ .idle ∨ s.held = []) ∧ ownMove s = .own s) := by
  unfold ownMove
  split
  · rename_i i is h1 h2; exact .inl ⟨i, is, h1, h2, rfl⟩
  · rename_i h
    refine .inr ⟨?_, rfl⟩
    by_contra hc
    push Not at hc
    obtain ⟨i, is, hi⟩ := List.exists_cons_of_ne_nil hc.2
    exact h i is hc.1 hi

/-- Everything that can become of a presented operation: it runs, or it joins the operations held in `IDLE`. -/
theorem presented_cases (i : Instr) (s : State) :
    (presented i s = .run i s ∧ (s.fsmState ≠ .idle ∨ s.held = [] ∨ opWaits i = false)) ∨
    (presented i s = .outside (hold i s) ∧ s.fsmState = .idle ∧ s.held ≠ [] ∧ opWaits i = true) := by
  unfold presented
  split
  · rename_i h1 h2 h3; exact .inr ⟨rfl, h1, by simp [h2], h3⟩
  · rename_i h
    refine .inl ⟨rfl, ?_⟩
    by_contra hc
    push Not at hc
    obtain ⟨j, js, hj⟩ := List.exists_cons_of_ne_nil hc.2.1
    exact h j js hc.1 hj (by simpa using hc.2.2)

/-- Who can move next, and from which state: that state differs from the machine's only in what is still to come. -/
theorem nextEvent_cases (s : State) :
    (∃ x xs, s.inputs = x :: xs ∧ nextEvent s = eventOf x { s with inputs := xs }) ∨
    (s.inputs = [] ∧ nextEvent s = ownMove s) := by
  unfold nextEvent
  split
  · rename_i x xs h; exact .inl ⟨x, xs, h, rfl⟩
  · rename_i h; exact .inr ⟨h, rfl⟩

/-- The next input is what happens next. -/
theorem nextEvent_input {s : State} {x : Input} {xs : List Input} (h : s.inputs = x :: xs) :
    nextEvent s = eventOf x { s with inputs := xs } := by
  simp [nextEvent, h]

/-- With nothing to come and no held operation due, the block takes its own step. -/
theorem nextEvent_own {s : State} (h : s.inputs = []) (hc : s.fsmState ≠ .idle ∨ s.held = []) : nextEvent s = .own s := by
  obtain ⟨i, is, h1, h2, -⟩ | ⟨-, he⟩ := ownMove_cases s
  · simp_all
  · simpa [nextEvent, h] using he

/-- Everything a step can be: from a state that differs only in `held` and `inputs`, an operation runs, the block takes its own step, an operation
is held, an event comes from outside, or the port refuses a request. -/
theorem step_cases (s : State) :
    ∃ hs xs, let u := { s with held := hs, inputs := xs }
      (∃ i, step s = exec i u) ∨ step s = ownStep u ∨ (∃ i, step s = .next (hold i u)) ∨ (∃ bs, step s = .next (envArrive bs u)) ∨
        step s = .next (envClose u) ∨ (∃ kept, step s = .next (applyReset kept u)) ∨ ∃ e, step s = .refused (refusalOf e) := by
  have move : ∀ u : State, nextEvent s = ownMove u → ∃ hs,
      (∃ i, step s = exec i { u with held := hs }) ∨ step s = ownStep { u with held := hs } := by
    intro u h
    obtain ⟨i, is, -, -, he⟩ | ⟨-, he⟩ := ownMove_cases u
    · exact ⟨is, .inl ⟨i, by simp only [step, h, he]⟩⟩
    · exact ⟨u.held, .inr (by simp only [step, h, he])⟩
  obtain ⟨x, xs, -, he⟩ | ⟨-, he⟩ := nextEvent_cases s
  · cases x with
    | op r =>
      refine ⟨s.held, xs, ?_⟩
      simp only [eventOf] at he
      cases hd : decodeRequest r with
      | ok i =>
        simp only [hd] at he
        obtain ⟨hp, -⟩ | ⟨hp, -⟩ := presented_cases i { s with inputs := xs }
        · exact .inl ⟨i, by simp only [step, he, hp]⟩
        · exact .inr (.inr (.inl ⟨i, by simp only [step, he, hp]⟩))
      | error e =>
        simp only [hd] at he
        exact .inr (.inr (.inr (.inr (.inr (.inr ⟨e, by simp only [step, he]⟩)))))
    | block =>
      obtain ⟨hs, h | h⟩ := move _ he
      · exact ⟨hs, xs, .inl h⟩
      · exact ⟨hs, xs, .inr (.inl h)⟩
    | arrive bs => exact ⟨s.held, xs, .inr (.inr (.inr (.inl ⟨bs, by simp only [step, he, eventOf]⟩)))⟩
    | chanClosed => exact ⟨s.held, xs, .inr (.inr (.inr (.inr (.inl (by simp only [step, he, eventOf])))))⟩
    | reset kept => exact ⟨s.held, xs, .inr (.inr (.inr (.inr (.inr (.inl ⟨kept, by simp only [step, he, eventOf]⟩)))))⟩
  · obtain ⟨hs, h | h⟩ := move _ he
    · exact ⟨hs, s.inputs, .inl h⟩
    · exact ⟨hs, s.inputs, .inr (.inl h)⟩

/-- Everything a step can do when it answers a next state. -/
theorem step_next {s t : State} (h : step s = .next t) :
    ∃ hs xs, let u := { s with held := hs, inputs := xs }
      (∃ i, exec i u = .next t) ∨ ownStep u = .next t ∨ (∃ i, t = hold i u) ∨ (∃ bs, t = envArrive bs u) ∨ t = envClose u ∨
        ∃ kept, t = applyReset kept u := by
  obtain ⟨hs, xs, ⟨i, he⟩ | he | ⟨i, he⟩ | ⟨bs, he⟩ | he | ⟨kept, he⟩ | ⟨e, he⟩⟩ := step_cases s <;> rw [he] at h
  · exact ⟨hs, xs, .inl ⟨i, h⟩⟩
  · exact ⟨hs, xs, .inr (.inl h)⟩
  · cases h; exact ⟨hs, xs, .inr (.inr (.inl ⟨i, rfl⟩))⟩
  · cases h; exact ⟨hs, xs, .inr (.inr (.inr (.inl ⟨bs, rfl⟩)))⟩
  · cases h; exact ⟨hs, xs, .inr (.inr (.inr (.inr (.inl rfl))))⟩
  · cases h; exact ⟨hs, xs, .inr (.inr (.inr (.inr (.inr ⟨kept, rfl⟩))))⟩
  · cases h

/-- A step faults only where the block's own step does. -/
theorem step_fault {s : State} {f : Fault} (h : step s = .fault f) :
    ∃ hs xs, ownStep { s with held := hs, inputs := xs } = .fault f := by
  obtain ⟨hs, xs, ⟨i, he⟩ | he | ⟨i, he⟩ | ⟨bs, he⟩ | he | ⟨kept, he⟩ | ⟨e, he⟩⟩ := step_cases s <;> rw [he] at h
  · obtain ⟨r, hx⟩ | ⟨j, -, hx⟩ | ⟨c, a, -, -, hx⟩ | ⟨a, b, -, hx⟩ | ⟨-, hx⟩ := exec_cases i { s with held := hs, inputs := xs } <;>
      rw [hx] at h <;> cases h
  · exact ⟨hs, xs, h⟩
  all_goals cases h

end Sys2Proof.Machine
end

