-- ==== Sys2Proof/Laws/PerInstr.lean ====
section
/-! SUPPORT. The family `PortForm`: every operation, driven onto the host port as its request, is read back as that operation (R104),
`EXEC` of an assigned id as the command itself (R108). One lemma per constructor. -/

namespace Sys2Proof.Laws.PortForm

/-- The host-port request of an operation decodes to that operation in its one decoded form. -/
def Statement (i : Instr) : Prop := decodeRequest (encodeRequest i) = .ok i.canon

theorem readQuat (args : List Int) : Statement (.readQuat args) := rfl
theorem readRpy (args : List Int) : Statement (.readRpy args) := rfl
theorem readRpyVar (args : List Int) : Statement (.readRpyVar args) := rfl
theorem readAcc (args : List Int) : Statement (.readAcc args) := rfl
theorem readAccVar (args : List Int) : Statement (.readAccVar args) := rfl
theorem readGyro (args : List Int) : Statement (.readGyro args) := rfl
theorem readGyroVar (args : List Int) : Statement (.readGyroVar args) := rfl
theorem readMag (args : List Int) : Statement (.readMag args) := rfl
theorem getFilterGain (args : List Int) : Statement (.getFilterGain args) := rfl
theorem setWorldFrameId (args : List Int) : Statement (.setWorldFrameId args) := rfl
theorem getWorldFrameId (args : List Int) : Statement (.getWorldFrameId args) := rfl
theorem readQuatRpy (args : List Int) : Statement (.readQuatRpy args) := rfl
theorem readAccGyro (args : List Int) : Statement (.readAccGyro args) := rfl
theorem clearDataBuffer (args : List Int) : Statement (.clearDataBuffer args) := rfl
theorem encode (cmd : Int) (payload : List Int) : Statement (.encode cmd payload) := rfl
theorem encodeNp (cmd : Int) : Statement (.encodeNp cmd) := rfl
theorem decodeFloats (raw : List Int) (count : Int) : Statement (.decodeFloats raw count) := rfl
theorem decodeFrame (frame : List Int) : Statement (.decodeFrame frame) := rfl
theorem exec (cmd : Int) (args : List Int) : Statement (.exec cmd args) := rfl
theorem openChan (respFramed : Int) (timeout : Nat) : Statement (.openChan respFramed timeout) := rfl
theorem closeChan : Statement .closeChan := rfl

end Sys2Proof.Laws.PortForm
end

