-- ==== Sys2Proof/Tests/Slice0.lean ====
section
/-! SUPPORT. Tests of the model against the spec's own vectors (95_test_vectors.md, named beside each test), each about one step on a small
state, the refusals of the well-formedness check, words of the encodings written out bit by bit, and the witnesses that meet the statements'
hypotheses. -/

namespace Sys2Proof.Tests

open Sys2Proof Sys2Proof.Machine

/-! ### Helpers -/

/-- One field of a next state. -/
def after {α : Type} (f : State → α) : Host.Outcome State Fault Refusal → Option α
  | .next s => some (f s)
  | .fault _ => none
  | .refused _ => none

/-- The newest result handed to the host. -/
def lastOut (s : State) : Option HostResult := s.hostOut.getLast?

/-- An open channel in `IDLE`, in raw or framed mode. -/
def idleOpen (framed : Bool) : State := { State.reset with chanOpen := true, cfgRespFramed := framed }

/-- A transaction of command `c` with `n` floats waiting for its response, the environment holding `rx` and answering the read in full. -/
def awaiting (framed : Bool) (c : Byte) (n : FloatCount) (rx : List Byte) : State :=
  { idleOpen framed with
    curCmd := some c
    expN := n
    expBytes := Fin.ofNat 37 (responseBytes n framed)
    rxPending := rx
    rxDraws := [.bytes 36]
    fsmState := .awaitingResponse }

/-- A decoded transaction of command `c` with one word. -/
def decodedOne (c : Byte) (w : Word) : State :=
  { idleOpen false with
    curCmd := some c
    expN := .one
    expBytes := 4
    result := #v[some w, none, none, none, none, none, none, none]
    resCnt := 1
    fsmState := .decoded }

/-- A request waiting to be written, the environment answering the write with `d`. -/
def sending (d : TxDraw) : State :=
  { idleOpen false with txFrame := [0xBB#8, 0x02#8, 0x00#8, 0xBD#8], txDraws := [d], fsmState := .requestSent }

/-- A transaction that failed with a short read. -/
def failedShort : State :=
  { idleOpen false with err := .shortReadError, errInfo := some (.shortRead 12 11), fsmState := .failed }

/-! ### Well-formedness: each check refuses an ill-formed term (R100, R105) -/

theorem test_wf_accepts : Instr.wf (.setWorldFrameId [0xFFFFFFFF]) ∧ Instr.wf (.readQuat []) ∧ Instr.wf (.encode 0xFF [0, 255]) ∧
    Instr.wf (.decodeFloats [255] 255) ∧ Instr.wf (.openChan 1 7) ∧ Instr.wf (.exec 0x04 [1]) := by decide
theorem test_wf_refuses_arity : Instr.wf (.getFilterGain [0]) = false ∧ Instr.wf (.setWorldFrameId []) = false ∧
    Instr.wf (.readMag [1]) = false ∧ Instr.wf (.exec 4 [0, 0]) = false := by decide
theorem test_wf_refuses_word : Instr.wf (.setWorldFrameId [0x100000000]) = false ∧ Instr.wf (.exec 4 [0x100000000]) = false := by decide
theorem test_wf_refuses_cmd : Instr.wf (.encode 0x100 []) = false ∧ Instr.wf (.encodeNp 0x100) = false ∧
    Instr.wf (.exec 0x100 []) = false := by decide
theorem test_wf_refuses_byte : Instr.wf (.encode 2 [0x1FF]) = false ∧ Instr.wf (.decodeFloats [256] 0) = false ∧
    Instr.wf (.decodeFrame [0xBB, 0x100, 0, 0xBB]) = false := by decide
set_option maxRecDepth 4000 in
theorem test_wf_refuses_payload_length : Instr.wf (.encode 0 (List.replicate 256 0)) = false := by decide
theorem test_wf_refuses_count : Instr.wf (.decodeFloats [0, 0, 0, 0] 256) = false := by decide
theorem test_wf_refuses_mode : Instr.wf (.openChan 2 0) = false := by decide
theorem test_wf_refuses_negative : Instr.wf (.encode (-1) []) = false ∧ Instr.wf (.encode 2 [-1]) = false ∧
    Instr.wf (.encodeNp (-1)) = false ∧ Instr.wf (.decodeFloats [] (-1)) = false ∧ Instr.wf (.decodeFloats [-1] 0) = false ∧
    Instr.wf (.decodeFrame [-1]) = false ∧ Instr.wf (.exec (-1) []) = false ∧ Instr.wf (.setWorldFrameId [-1]) = false ∧
    Instr.wf (.openChan (-1) 0) = false := by decide

/-! ### Decoding: words written out from the encodings (30_encoding.md; opcode table) -/

theorem test_frame_np : decodeFrameBytes [0b10111011#8, 0b00000010#8, 0b00000000#8, 0b10111101#8] = .ok (.readRpy []) := by decide
theorem test_frame_np_last : decodeFrameBytes [0b10111011#8, 0b00100011#8, 0b00000000#8, 0b11011110#8] = .ok (.readAccGyro []) := by decide
theorem test_frame_iw : decodeFrameBytes [0b10111011#8, 0b00011110#8, 0b00000101#8, 0#8, 0#8, 0#8, 0#8, 0#8, 0b11011110#8] =
    .ok (.getFilterGain []) := by decide
/-- V-EX-15. -/
theorem test_frame_iw_value : decodeFrameBytes [0xBB#8, 0x1F#8, 0x05#8, 0#8, 0#8, 0#8, 0#8, 0x40#8, 0x1F#8] =
    .ok (.setWorldFrameId [0x40000000]) := by decide
theorem test_frame_refused : decodeFrameBytes [0xBB#8, 0x04#8, 0x00#8, 0xBF#8] = .error .unassignedCmd ∧
    decodeFrameBytes [0xBC#8, 0x02#8, 0x00#8, 0xBE#8] = .error .notAFrame ∧
    decodeFrameBytes [0xBB#8, 0x02#8, 0x00#8, 0xBE#8] = .error .badChecksum ∧
    decodeFrameBytes [0xBB#8, 0x1E#8, 0x00#8, 0xD9#8] = .error .badShape ∧
    decodeFrameBytes [0xBB#8, 0x1E#8, 0x05#8, 0#8, 1#8, 0#8, 0#8, 0#8, 0xDF#8] = .error .badDummy := by decide
theorem test_opsel_close : decodeRequest { opsel := 0b110#3 } = .ok .closeChan := by decide
theorem test_opsel_seven : decodeRequest { opsel := 0b111#3 } = .error .illegalOpsel := by decide
/-- The opcode table's words: command ids by their byte, selectors where no id takes the word, a whole frame. -/
theorem test_table_words : decodeTableWord 8 0x11 = some (.readMag []) ∧ decodeTableWord 8 0x1F = some (.setWorldFrameId [0]) ∧
    decodeTableWord 8 0 = some (.encode 0 []) ∧ decodeTableWord 8 4 = some (.exec 0 []) ∧ decodeTableWord 8 6 = some .closeChan ∧
    decodeTableWord 3 5 = some (.openChan 0 0) ∧ decodeTableWord 8 7 = none ∧
    decodeTableWord 32 0xBD0002BB = some (.readRpy []) := by decide
theorem test_fetch_runs_table_word : after lastOut (step (State.reset.withFetchWord 8 6)) = some (some .done) := by decide

/-! ### Codec operations -/

/-- V-ENC-1. -/
theorem test_encode : after lastOut (exec (.encode 0x1F [0, 0, 0, 0x80, 0x3F]) State.reset) =
    some (some (.frame [0xBB#8, 0x1F#8, 0x05#8, 0#8, 0#8, 0#8, 0x80#8, 0x3F#8, 0x9E#8])) := by decide
/-- V-ENC-9. -/
theorem test_encode_priority : after lastOut (exec (.encode 0x100 (List.replicate 300 0)) State.reset) =
    some (some (.err .encodingError .malformedArg)) := by decide
/-- V-NP-12. -/
theorem test_encodeNp_wraps : after lastOut (exec (.encodeNp 0x45) State.reset) =
    some (some (.frame [0xBB#8, 0x45#8, 0#8, 0#8])) := by decide
/-- V-DF-3. -/
theorem test_decodeFloats : after lastOut (exec (.decodeFloats [0, 0, 0xC0, 0x7F, 1, 0, 0x80, 0x80] 2) State.reset) =
    some (some (.words [0x7FC00000#32, 0x80800001#32])) := by decide
/-- V-DF-8. -/
theorem test_decodeFloats_length : after lastOut (exec (.decodeFloats [] 1) State.reset) =
    some (some (.err .framingError (.lengthMismatch 0))) := by decide
/-- V-DFR-8. -/
theorem test_decodeFrame_checksum : after lastOut (exec (.decodeFrame [0xBB, 0x1F, 4, 0, 0, 0x80, 0x3F, 0x9E]) State.reset) =
    some (some (.err .checksumMismatch (.checksum 0x9D#8 0x9E#8))) := by decide
/-- V-DFR-14. -/
theorem test_decodeFrame_truncated : after lastOut (exec (.decodeFrame [0xBB, 0x1F, 6, 0, 0, 0, 0x80, 0x3F, 0x9E]) State.reset) =
    some (some (.err .framingError (.truncated 9))) := by decide

/-- R142, R143: an operand below 0 is malformed. -/
theorem test_encode_negative : after lastOut (exec (.encode (-1) []) State.reset) = some (some (.err .encodingError .malformedArg)) ∧
    after lastOut (exec (.encode 2 [0, -1]) State.reset) = some (some (.err .encodingError .malformedArg)) ∧
    after lastOut (exec (.encodeNp (-256)) State.reset) = some (some (.err .encodingError .malformedArg)) := by decide
/-- R144, R146: an operand below 0 is malformed, before any length is looked at. -/
theorem test_decode_negative : after lastOut (exec (.decodeFloats [] (-1)) State.reset) = some (some (.err .framingError .malformed)) ∧
    after lastOut (exec (.decodeFloats [-1] 0) State.reset) = some (some (.err .framingError .malformed)) ∧
    after lastOut (exec (.decodeFrame [-69]) State.reset) = some (some (.err .framingError .malformed)) := by decide

/-! ### Channel operations and acceptance -/

/-- V-HOST-3. -/
theorem test_open_fails : after (fun t => (t.chanOpen, t.cfgRespFramed, t.err, lastOut t))
    (exec (.openChan 0 9) { idleOpen true with openDraws := [false], err := .shortReadError }) =
    some (false, true, .shortReadError, some (.err .transportError .openFailed)) := by decide
/-- V-HOST-4. -/
theorem test_open_malformed : after (fun t => (t.chanOpen, lastOut t)) (exec (.openChan 2 9) (idleOpen false)) =
    some (true, some (.err .encodingError .malformedArg)) := by decide
/-- V-HOST-5. -/
theorem test_close_twice : after (fun t => (t.chanOpen, lastOut t)) (exec .closeChan State.reset) = some (false, some .done) := by decide
/-- V-ERR-1, V-RST-2. -/
theorem test_exec_closed : after (fun t => (t.err, t.errInfo, t.fsmState, t.txStream)) (exec (.readRpy []) State.reset) =
    some (.transportError, some .closed, .failed, []) := by decide
/-- V-PRI-1: an unassigned id comes before arity and channel. -/
theorem test_exec_priority : after (fun t => (t.errInfo, t.curCmd)) (exec (.exec 0x04 [0x3F800000]) State.reset) =
    some (some (.unassignedCmd 0x04#8), none) := by decide
/-- V-EX-17: the range is not checked. -/
theorem test_setWorldFrameId_frame : after (fun t => (t.txFrame, t.curArgc, t.curArg))
    (exec (.setWorldFrameId [0x40A00000]) (idleOpen false)) =
    some ([0xBB#8, 0x1F#8, 5#8, 0#8, 0#8, 0#8, 0xA0#8, 0x40#8, 0xBF#8], 1, some 0x40A00000#32) := by decide
/-- V-ERR-3. -/
theorem test_getFilterGain_arity : after (fun t => t.errInfo) (exec (.getFilterGain [0x3F800000]) (idleOpen false)) =
    some (some (.arity 1)) := by decide
/-- R161, R167: an operand below 0 is malformed. -/
theorem test_exec_negative : after (fun t => t.errInfo) (exec (.exec (-1) []) State.reset) = some (some .malformedArg) ∧
    after (fun t => t.errInfo) (exec (.setWorldFrameId [-1]) (idleOpen false)) = some (some .malformedArg) ∧
    after lastOut (exec (.openChan (-1) 9) State.reset) = some (some (.err .encodingError .malformedArg)) := by decide
/-- R170, R181: framed response sizes 20 and 36. -/
theorem test_exp_bytes : after (fun t => (t.expN, t.expBytes)) (exec (.readQuat []) (idleOpen true)) = some (.four, 20) ∧
    after (fun t => (t.expN, t.expBytes)) (exec (.readQuatRpy []) (idleOpen true)) = some (.eight, 36) := by decide
/-- V-HOST-6: a codec operation during a transaction is not held, an `EXEC` is (R160). -/
theorem test_busy : after (fun t => (lastOut t, t.fsmState)) (exec (.encodeNp 2) (awaiting false 2#8 .three [])) =
      some (some (.frame [0xBB#8, 2#8, 0#8, 0xBD#8]), .awaitingResponse) ∧
    after (fun t => (t.held, t.fsmState)) (exec (.readMag []) (awaiting false 2#8 .three [])) =
      some ([.readMag []], .awaitingResponse) := by decide

/-! ### The block's own steps -/

/-- V-ERR-7. -/
theorem test_write_fails : after (fun t => (t.txStream, t.errInfo, t.fsmState)) (step (sending ⟨true, 2⟩)) =
    some ([0xBB#8, 0x02#8], some .writeFailed, .failed) := by decide
theorem test_write_ok : after (fun t => (t.txStream, t.fsmState)) (step (sending ⟨false, 2⟩)) =
    some ([0xBB#8, 2#8, 0#8, 0xBD#8], .awaitingResponse) := by decide
/-- V-EX-21. -/
theorem test_read_short : after (fun t => (t.errInfo, t.rxLen, t.resCnt, t.rxPending))
    (step (awaiting false 0x11#8 .three (List.replicate 11 0#8))) = some (some (.shortRead 12 11), 11, 0, []) := by decide
/-- V-ERR-8. -/
theorem test_read_closed : after (fun t => (t.errInfo, t.chanOpen, t.rxPending))
    (step { awaiting false 2#8 .three [1#8] with rxDraws := [.closed] }) = some (some .closed, false, [1#8]) := by decide
/-- V-EX-22: the reference mode decodes the first four bytes of a framed answer, and the rest stays. -/
theorem test_read_raw_shifted : after (fun t => (t.result[0], t.rxPending))
    (step (awaiting false 0x1E#8 .one [0xBB#8, 0x1E#8, 4#8, 0xCD#8, 0xCC#8, 0xCC#8, 0x3D#8, 0x7F#8])) =
    some (some 0xCD041EBB#32, [0xCC#8, 0xCC#8, 0x3D#8, 0x7F#8]) := by decide
/-- V-SM-1. -/
theorem test_strict_ok : after (fun t => (t.result[0], t.fsmState))
    (step (awaiting true 0x1E#8 .one [0xBB#8, 0x1E#8, 4#8, 0xCD#8, 0xCC#8, 0xCC#8, 0x3D#8, 0x7F#8])) =
    some (some 0x3DCCCCCD#32, .decoded) := by decide
/-- V-SM-3, V-SM-4, V-SM-5, V-SM-7. -/
theorem test_strict_errors :
    after (fun t => t.errInfo) (step (awaiting true 0x1E#8 .one [0xBB#8, 0x1F#8, 4#8, 0xCD#8, 0xCC#8, 0xCC#8, 0x3D#8, 0x7F#8])) =
      some (some (.badCmdEcho 0x1F#8)) ∧
    after (fun t => t.errInfo) (step (awaiting true 0x1E#8 .one [0xBB#8, 0x1E#8, 5#8, 0xCD#8, 0xCC#8, 0xCC#8, 0x3D#8, 0x7F#8])) =
      some (some (.badLengthField 5#8)) ∧
    after (fun t => t.errInfo) (step (awaiting true 0x1E#8 .one [0xBB#8, 0x1E#8, 4#8, 0xCD#8, 0xCC#8, 0xCC#8, 0x3D#8, 0x80#8])) =
      some (some (.checksum 0x7F#8 0x80#8)) ∧
    after (fun t => t.errInfo) (step (awaiting true 0x1E#8 .one [0xBA#8, 0x1F#8, 5#8, 0xCD#8, 0xCC#8, 0xCC#8, 0x3D#8, 0#8])) =
      some (some (.badStart 0xBA#8)) := by decide
/-- V-EX-18: round before truncate. -/
theorem test_deliver_int : after lastOut (step (decodedOne 0x20#8 0x3FFFFFFD#32)) =
    some (some (.value (.int 2) [0x3FFFFFFD#32])) := by decide
/-- V-EX-20. -/
theorem test_deliver_nonfinite : after (fun t => (lastOut t, t.err, t.result[0], t.resCnt)) (step (decodedOne 0x27#8 0x7F800000#32)) =
    some (some (.err .nonFiniteIntegerError (.nonFinite 0x7FF0000000000000#64)), .nonFiniteIntegerError,
      some 0x7F800000#32, 1) := by decide
/-- V-EX-9: 0.1 in binary64. -/
theorem test_deliver_real : after lastOut (step (decodedOne 0x1E#8 0x3DCCCCCD#32)) =
    some (some (.value (.reals [0x3FB999999999999A#64]) [0x3DCCCCCD#32])) := by decide
theorem test_deliver_failed : after (fun t => (lastOut t, t.fsmState, t.err)) (step failedShort) =
    some (some (.err .shortReadError (.shortRead 12 11)), .idle, .shortReadError) := by decide
/-- V-RST-3: reset during the wait keeps the streams and delivers nothing. -/
theorem test_reset_waiting : after (fun t => (t.fsmState, t.rxPending, t.hostOut, t.curCmd))
    (step { awaiting false 2#8 .three [7#8] with inputs := [.reset 0] }) = some (.idle, [7#8], [], none) := by decide

/-! ### Post-processing vectors -/

/-- V-R6-10, V-R6-14, V-R6-18. -/
theorem test_round6 : round6 0 0xBC000000#32 = 0xBF7FFF79C842FA51#64 ∧ round6 0 0x350637BD#32 = 0#64 ∧
    round6 0 0x402FFFFF#32 = 0x4006000000000000#64 := by decide
/-- V-R6-17, V-R6-22. -/
theorem test_trunc : trunc (round6 0 0xBF333333#32) = some 0 ∧
    trunc (round6 0 0x7F7FFFFF#32) = some 340282346638528859811704183484516925440 := by decide
/-- R107: the literal 0.1 is the nearest binary32 value (V-R6-1). -/
theorem test_literal : wordOperand? "0.1".toList = some 0x3DCCCCCD ∧ wordOperand? "-0.0".toList = some 0x80000000 := by decide

/-! ### Witnesses: states and operands that meet the hypotheses of each statement -/

/-- `IDLE` with a `CLOSE` still held. -/
def idleHolding (xs : List Input) : State := { idleOpen false with held := [.closeChan], inputs := xs }

/-- An `EXEC` joins the held operations, a codec operation runs at once (V-HOST-6), and the block's own move takes the held one (R160). -/
theorem test_idle_held :
    after (fun t => (t.held, t.fsmState)) (step (idleHolding [.op { opsel := 4#3, cmd := 2 }])) = some ([.closeChan, .readRpy []], .idle) ∧
    after (fun t => (t.held, lastOut t)) (step (idleHolding [.op { opsel := 1#3, cmd := 2 }])) =
      some ([.closeChan], some (.frame [0xBB#8, 2#8, 0#8, 0xBD#8])) ∧
    after (fun t => (t.held, t.chanOpen, lastOut t)) (step (idleHolding [.block])) = some ([], false, some .done) := by decide
/-- R64, R66, R260: the environment and reset come before a held operation, where the inputs say so. -/
theorem test_idle_held_outside :
    after (fun t => (t.chanOpen, t.held)) (step (idleHolding [.chanClosed])) = some (false, [.closeChan]) ∧
    after (fun t => (t.rxPending, t.held)) (step (idleHolding [.arrive [7#8]])) = some ([7#8], [.closeChan]) ∧
    after (fun t => (t.chanOpen, t.held)) (step (idleHolding [.reset 0])) = some (false, [.closeChan]) := by decide

theorem test_witness_StepRunsThePresentedOperation :
    (placeRequest { opsel := 6#3 } State.reset).inputs = .op { opsel := 6#3 } :: [] ∧ decodeRequest { opsel := 6#3 } = .ok .closeChan ∧
    (placeRequest { opsel := 6#3 } State.reset).held = [] ∧ opWaits .closeChan = true ∧ opWaits (.encodeNp 2) = false ∧
    (idleHolding []).fsmState = .idle ∧ (idleHolding []).held = .closeChan :: [] ∧ (idleHolding []).inputs = [] ∧
    (idleHolding [.block]).inputs = .block :: [] ∧ failedShort.fsmState ≠ .idle := by decide
theorem test_witness_OnlySelectorSevenIsRefused :
    (idleHolding [.op { opsel := 7#3 }]).inputs = .op { opsel := 7#3 } :: [] ∧
    (match step (idleHolding [.op { opsel := 7#3 }]) with | .refused .illegalOpsel => true | _ => false) = true := by decide
theorem test_witness_ExecOfAnAssignedIdIsTheCommand : (commandForms.map fun p => p.1).length = 14 := by decide
theorem test_witness_PortRequestDeterminesTheOperation :
    encodeRequest (.exec 0x01 []) = encodeRequest (.readQuat []) := by decide
theorem test_witness_ChecksumIsTheSumModulo256 : [0xBB#8, 2#8, 0#8].Perm [2#8, 0xBB#8, 0#8] := by decide
theorem test_witness_CodecOperationsArePure : (∃ c p, Instr.encode 1 [] = .encode c p) ∧ (∃ c, Instr.encodeNp 1 = .encodeNp c) ∧
    (∃ r n, Instr.decodeFloats [] 0 = .decodeFloats r n) ∧ (∃ f, Instr.decodeFrame [] = .decodeFrame f) :=
  ⟨⟨_, _, rfl⟩, ⟨_, rfl⟩, ⟨_, _, rfl⟩, ⟨_, rfl⟩⟩
set_option maxRecDepth 4000 in
/-- Boundary values of each clause: commands -1, 256, 0 and 255, bytes -1 and 256, lengths 256 and 255. -/
theorem test_witness_EncodeBuildsTheFrameOrRefuses :
    (-1 : Int) < 0 ∧ (256 : Int) ≤ 256 ∧ (∃ b ∈ [(-1 : Int)], b < 0) ∧ (∃ b ∈ [(256 : Int)], 256 ≤ b) ∧
    ((0 : Int) ≤ 255 ∧ (255 : Int) < 256 ∧ (∀ b ∈ List.replicate 256 (255 : Int), 0 ≤ b ∧ b < 256) ∧
      255 < (List.replicate 256 (255 : Int)).length) ∧ (List.replicate 255 (255 : Int)).length ≤ 255 := by decide
theorem test_witness_EncodeNpIsEncodeOfAnEmptyPayload : (0 : Int) ≤ 255 ∧ (255 : Int) < 256 ∧ (-1 : Int) < 0 ∧ (256 : Int) ≤ 256 := by
  decide
/-- Boundary values: counts -1 and 256, bytes -1 and 256, 3 bytes for one word, 4 bytes for one word, no bytes for none. -/
theorem test_witness_DecodeFloatsReadsLittleEndianWords :
    (-1 : Int) < 0 ∧ (255 : Int) < 256 ∧ (∃ b ∈ [(-1 : Int)], b < 0) ∧ (∃ b ∈ [(256 : Int)], 256 ≤ b) ∧
    ((∀ b ∈ [(0 : Int), 0, 255], 0 ≤ b ∧ b < 256) ∧ ([(0 : Int), 0, 255].length : Int) ≠ 4 * 1) ∧
    ((∀ b ∈ [(0 : Int), 0, 0, 255], 0 ≤ b ∧ b < 256) ∧ ([(0 : Int), 0, 0, 255].length : Int) = 4 * 1) ∧
    (([] : List Int).length : Int) = 4 * 0 := by decide
/-- One frame for each clause, at the boundary of its length. -/
theorem test_witness_DecodeFrameChecksInOrder :
    (∃ b ∈ [(0xBB : Int), 256, 0, 0xBB], 256 ≤ b) ∧ (∃ b ∈ [(0xBB : Int), -1, 0, 0xBB], b < 0) ∧
    ((∀ b ∈ [(0xBB : Int), 0, 0], 0 ≤ b ∧ b < 256) ∧ [(0xBB : Int), 0, 0].length < 4) ∧
    ((0xBC : Int) ≠ 0xBB) ∧ ([(0xBB : Int), 0, 1, 0].length : Int) < 1 + 4 ∧ 0 + 4 < ([(0xBB : Int), 0, 0, 0xBB, 0].length : Int) ∧
    ([(0xBC : Int)] = [] ++ [0xBC] ∧ (([] : List Int).length : Int) = 0 ∧ (0xBC : Int) ≠ (0xBB + 0 + 0 + ([] : List Int).sum) % 256) ∧
    (0xBB : Int) = (0xBB + 0 + 0 + ([] : List Int).sum) % 256 := by decide
theorem test_witness_DecodeFrameInvertsEncode : (List.replicate 255 0xFF#8).length ≤ 255 :=
  le_of_eq List.length_replicate
theorem test_witness_EncodeChecksumByteIsDetermined : ([] : List Byte).length ≤ 255 := by decide
theorem test_witness_AcceptedBytesAreTheFrameOfTheirContent :
    splitFrame [0xBB#8, 2#8, 1#8, 0xBB#8, 0x79#8] = .ok (2#8, [0xBB#8]) := by decide
theorem test_witness_RequestFramesDecodeToTheirCommand : ∀ p ∈ commandForms,
    ∃ args ∈ [[], [0xFFFFFFFF]], (p.2 args).wf = true := by decide
theorem test_witness_AcceptedCommandIsLatchedAndItsFrameBuilt : (∀ p ∈ commandForms, (cmdEntry? p.1).isSome ∧
    ∃ args ∈ [[], [0xFFFFFFFF]], (p.2 args).wf = true) ∧ (idleOpen true).fsmState = .idle ∧ (idleOpen true).chanOpen = true := by decide
theorem test_witness_RequestFramesAreTheListedBytes : fixedRequests.length = 13 ∧ (idleOpen false).fsmState = .idle ∧
    (idleOpen false).chanOpen = true := by decide
/-- One operand list for each clause, at the boundary of its range. -/
theorem test_witness_PresendChecksFailInOrder : State.reset.fsmState = .idle ∧ (-1 : Int) < 0 ∧ (256 : Int) ≤ 256 ∧
    cmdEntry? 0x28#8 = none ∧ (cmdEntry? 0x1F#8).map (fun e => e.argc) = some 1 ∧ ([] : List Int).length ≠ 1 ∧
    (∃ a ∈ [(2 : Int) ^ 32], 2 ^ 32 ≤ a) ∧ (∃ a ∈ [(-1 : Int)], a < 0) ∧ (∀ a ∈ [(2 : Int) ^ 32 - 1], 0 ≤ a ∧ a < 2 ^ 32) ∧ State.reset.chanOpen = false := by decide
theorem test_witness_OperationsAreHeldOutsideIdle : failedShort.fsmState ≠ .idle ∧ (Instr.exec 1 []).execOperands?.isSome = true ∧
    (Instr.readMag []).execOperands?.isSome = true := by decide
theorem test_witness_OpenSetsChannelAndConfiguration : State.reset.fsmState = .idle ∧ (1 : Int) < 2 ∧ (-1 : Int) < 0 ∧
    State.reset.openDraws = [] ∧
    ({ State.reset with openDraws := [true] } : State).openDraws = true :: [] ∧
    ({ State.reset with openDraws := [false] } : State).openDraws = false :: [] ∧ failedShort.fsmState ≠ .idle := by decide
theorem test_witness_CloseClearsTheChannel : (idleOpen true).fsmState = .idle ∧ failedShort.fsmState ≠ .idle ∧
    State.reset.fsmState = .idle ∧ State.reset.chanOpen = false ∧ (Instr.setWorldFrameId [0]).wf = true := by decide
theorem test_witness_TxWriteAppendsAllOrAPart : (sending ⟨false, 0⟩).txDraws = ⟨false, 0⟩ :: [] ∧ (sending ⟨false, 0⟩).chanOpen = true ∧
    (sending ⟨true, 4⟩).txDraws = ⟨true, 4⟩ :: [] ∧ State.reset.txDraws = [] := by decide
theorem test_witness_RxReadTakesFromTheFront : (awaiting false 2#8 .three [1#8]).rxDraws = .bytes 36 :: [] ∧
    (awaiting false 2#8 .three [1#8]).chanOpen = true ∧ State.reset.rxDraws = [] ∧
    (idleHolding [.arrive [5#8]]).inputs = .arrive [5#8] :: [] := by decide
theorem test_witness_WriteStepSendsTheFrameOnce : (sending ⟨false, 0⟩).fsmState = .requestSent ∧
    (txWrite (sending ⟨false, 0⟩).txFrame (sending ⟨false, 0⟩)).1 = true ∧
    (txWrite (sending ⟨true, 0⟩).txFrame (sending ⟨true, 0⟩)).1 = false := by decide
/-- An empty read and a read one byte short. -/
theorem test_witness_ReadStepRaisesClosedOrShortRead :
    let s := awaiting false 2#8 .three (List.replicate 11 0#8)
    s.fsmState = .awaitingResponse ∧ s.expBytes.val = responseBytes s.expN s.cfgRespFramed ∧
    (rxRead s.expBytes.val { s with rxDraws := [.closed] }).1 = none ∧
    (rxRead s.expBytes.val s).1 = some (List.replicate 11 0#8) ∧ 11 < s.expBytes.val := by decide
theorem test_witness_RawResponseIsDecodedUnchecked :
    let s := awaiting false 0x22#8 .eight (List.replicate 33 0#8)
    s.fsmState = .awaitingResponse ∧ s.expBytes.val = 4 * s.expN.toNat ∧ s.cfgRespFramed = false ∧
    (rxRead s.expBytes.val s).1 = some (List.replicate 32 0#8) ∧ (List.replicate 32 0#8).length = s.expBytes.val := by decide
/-- The response of V-SM-1; the other clauses differ from it in one byte each (V-SM-2 to V-SM-5). -/
theorem test_witness_FramedResponseIsCheckedInOrder :
    let s := awaiting true 0x1E#8 .one [0xBB#8, 0x1E#8, 4#8, 0xCD#8, 0xCC#8, 0xCC#8, 0x3D#8, 0x7F#8]
    s.fsmState = .awaitingResponse ∧ s.cfgRespFramed = true ∧ s.curCmd = some 0x1E#8 ∧ s.expBytes.val = 4 * s.expN.toNat + 4 ∧
    (rxRead s.expBytes.val s).1 = some ([0xBB#8, 0x1E#8, 4#8] ++ [0xCD#8, 0xCC#8, 0xCC#8, 0x3D#8] ++ [0x7F#8]) ∧
    0xBA#8 ≠ 0xBB#8 ∧ 0x1F#8 ≠ 0x1E#8 ∧ (5#8).toNat ≠ 4 * s.expN.toNat ∧
    0x7F#8 = BitVec.ofNat 8 ((0xBB + 0x1E + 4 + 0xCD + 0xCC + 0xCC + 0x3D) % 256) ∧ 0x80#8 ≠ 0x7F#8 := by decide
theorem test_witness_FailedTransactionIsDelivered : failedShort.fsmState = .failed ∧ failedShort.errInfo = some (.shortRead 12 11) := by decide
theorem test_witness_DecodedTransactionIsDelivered :
    let s := decodedOne 0x20#8 0x40000000#32
    s.fsmState = .decoded ∧ s.curCmd = some 0x20#8 ∧ (cmdEntry? 0x20#8).map (fun e => e.n.toNat) = some s.resCnt.val ∧
    [0x40000000#32].length = s.resCnt.val ∧ s.result[0] = some 0x40000000#32 := by decide
theorem test_witness_Round6IsTheNearestBinary64 : f32 0x7FC00000#32 = .nan ∧ f32 0xFF800000#32 = .inf true ∧
    f32 0x3F800000#32 = .fin false (2 ^ 23) (-23) ∧ f32 0x80000001#32 = .fin true 1 (-149) ∧
    f64Val 0x3FF0000000000000#64 = .fin false (2 ^ 52) (-52) := by decide
theorem test_witness_Round6IsSymmetricAndKeepsLargeValues : f32 0x3F800000#32 ≠ .nan ∧
    150 ≤ ((0x4B000000#32).extractLsb' 23 8).toNat ∧ ((0x7F7FFFFF#32).extractLsb' 23 8).toNat < 255 := by decide
theorem test_witness_TruncRoundsTowardZero : f64Val 0x7FF8000000000000#64 = .nan ∧ f64Val 0x7FF0000000000000#64 = .inf false ∧
    f64Val 0xBFE6666666666666#64 = .fin true 0x16666666666666 (-53) := by decide
theorem test_witness_PostFollowsTheClass : 7 ≤ (List.replicate 7 0#32).length ∧ [0x3F800000#32].head? = some 0x3F800000#32 ∧
    trunc (round6 0 0x3F800000#32) = some 1 ∧ trunc (round6 0 0x7F800000#32) = none := by decide

/-- An open channel with nothing held or scheduled, the environment answering one write and one read and holding `rx`. -/
def ready (framed : Bool) (d : TxDraw) (k : Nat) (rx : List Byte) : State :=
  { idleOpen framed with txDraws := [d], rxDraws := [.bytes k], rxPending := rx }

theorem test_witness_TransactionDeliversTheDecodedResponse :
    let s := ready true ⟨false, 0⟩ 36 (responseOnLine true 0x1F#8 [0#8, 0#8, 0x80#8, 0x3F#8] ++ [9#8])
    s.fsmState = .idle ∧ s.chanOpen = true ∧ s.held = [] ∧ s.inputs = [] ∧ s.txDraws = ⟨false, 0⟩ :: [] ∧ s.rxDraws = .bytes 36 :: [] ∧
    (Instr.setWorldFrameId [0x3F800000]).wf = true ∧ (cmdEntry? 0x1F#8).map (fun e => 4 * e.n.toNat) = some 4 ∧
    wordsOf? [0#8, 0#8, 0x80#8, 0x3F#8] = some [0x3F800000#32] := by decide
theorem test_witness_ShortReadIsDeliveredAndRecoverable :
    let s := ready false ⟨false, 0⟩ 11 (List.replicate 11 1#8 ++ [2#8])
    s.fsmState = .idle ∧ s.chanOpen = true ∧ s.held = [] ∧ s.inputs = [] ∧ s.txDraws = ⟨false, 0⟩ :: [] ∧ s.rxDraws = .bytes 11 :: [] ∧
    (List.replicate 11 1#8).length = min 11 s.rxPending.length ∧ 11 < responseBytes .three s.cfgRespFramed ∧
    (Instr.readMag []).wf = true ∧ (cmdEntry? 0x11#8).map (fun e => e.n) = some .three := by decide
theorem test_witness_FailedWriteMakesNoRead :
    let s := ready false ⟨true, 2⟩ 36 []
    s.fsmState = .idle ∧ s.chanOpen = true ∧ s.held = [] ∧ s.inputs = [] ∧ s.txDraws = ⟨true, 2⟩ :: [] ∧
    (Instr.readRpy []).wf = true ∧ (cmdEntry? 0x02#8).isSome := by decide
theorem test_witness_ResetEventKeepsTheEnvironment :
    let s := { sending ⟨false, 0⟩ with inputs := [.reset 2] }
    s.inputs = .reset 2 :: [] ∧ (idleHolding [.reset 0]).inputs = .reset 0 :: [] ∧ s.fsmState = .requestSent ∧ (awaiting false 2#8 .three []).fsmState ≠ .requestSent := by decide

/-- The invariant holds of an open idle block. -/
theorem test_inv_idleOpen : (idleOpen true).Inv := by
  constructor <;> first | decide | simp [idleOpen, State.reset, PhaseOk]
/-- The invariant holds of a failed transaction. -/
theorem test_inv_failedShort : failedShort.Inv := by
  constructor <;> first | decide | simp [failedShort, idleOpen, State.reset, PhaseOk, errCodeOf]

theorem test_witness_TransactionFinishesInThreeSteps :
    failedShort.Inv ∧ failedShort.fsmState ≠ .idle ∧ failedShort.inputs = [] := ⟨test_inv_failedShort, by decide, rfl⟩
theorem test_witness_StepKeepsTheInvariant : ∃ s t : State, s.Inv ∧ step s = .next t :=
  ⟨failedShort, _, test_inv_failedShort, rfl⟩
theorem test_witness_InvariantExcludesFaults : (idleOpen true).Inv := test_inv_idleOpen
theorem test_witness_StepFollowsTheStateMachine : ∃ s t : State, step s = .next t ∧ s.fsmState ≠ .idle ∧ t.fsmState = .idle :=
  ⟨failedShort, _, rfl, by decide, rfl⟩
theorem test_witness_TxStreamIsAppendOnly : ∃ s t : State, step s = .next t ∧ t.txStream ≠ s.txStream :=
  ⟨sending ⟨false, 0⟩, _, rfl, by decide⟩
theorem test_witness_RxPendingIsConsumedOnlyByTheReadStep : ∃ s t : State, step s = .next t ∧ t.rxPending ≠ s.rxPending :=
  ⟨awaiting false 2#8 .three (List.replicate 12 0#8), _, rfl, by decide⟩
theorem test_witness_StepDeliversAtMostOneResult : ∃ s t : State, step s = .next t ∧ t.hostOut ≠ s.hostOut :=
  ⟨failedShort, _, rfl, by decide⟩
theorem test_witness_OnlyOpenAndResetWriteTheConfiguration : (∀ f n, Instr.closeChan ≠ .openChan f n) ∧
    (∃ t, exec .closeChan (idleOpen true) = .next t) ∧ ∃ t, ownStep failedShort = .next t :=
  ⟨by simp, ⟨_, rfl⟩, ⟨_, rfl⟩⟩
theorem test_witness_OnlyOpenReopensTheChannel :
    (idleHolding [.chanClosed]).inputs = .chanClosed :: [] ∧
    State.reset.chanOpen = false ∧
    (∃ t, exec (.openChan 0 0) { State.reset with openDraws := [true] } = .next t ∧ t.chanOpen = true) ∧
    ∃ t, step (placeRequest { opsel := 5#3 } { State.reset with openDraws := [true] }) = .next t ∧ t.chanOpen = true :=
  ⟨rfl, rfl, ⟨_, rfl, rfl⟩, ⟨_, rfl, rfl⟩⟩
theorem test_witness_ErrorsOutsideATransactionWriteNoStatus :
    (Instr.openChan 0 0).execOperands? = none ∧ State.reset.fsmState = .idle ∧
    (∃ t, exec .closeChan State.reset = .next t) ∧
    ∃ t, exec (.openChan 0 0) { State.reset with openDraws := [false] } = .next t ∧
      t.hostOut = State.reset.hostOut ++ [.err .transportError .openFailed] := ⟨rfl, rfl, ⟨_, rfl⟩, _, rfl, rfl⟩

end Sys2Proof.Tests
end

section
/-! PROOFS. The little-endian packing of R12: the value of each direction, and that they are inverses. -/

namespace Sys2Proof.Machine

theorem toNat_append_byte {n : Nat} (x : BitVec n) (b : Byte) : (x ++ b).toNat = 256 * x.toNat + b.toNat := by
  rw [BitVec.toNat_append, ← Nat.shiftLeft_add_eq_or_of_lt b.isLt, Nat.shiftLeft_eq, Nat.mul_comm]

theorem le32_map_toNat (w : Word) : (le32 w).map BitVec.toNat =
    [w.toNat % 256, w.toNat / 256 % 256, w.toNat / 65536 % 256, w.toNat / 16777216 % 256] := by
  simp [le32, Nat.shiftRight_eq_div_pow]

theorem fromLe32_toNat (b0 b1 b2 b3 : Byte) : (fromLe32 b0 b1 b2 b3).toNat =
    b0.toNat + 256 * b1.toNat + 65536 * b2.toNat + 16777216 * b3.toNat := by
  simp only [fromLe32, toNat_append_byte]
  omega

@[simp] theorem le32_fromLe32 (b0 b1 b2 b3 : Byte) : le32 (fromLe32 b0 b1 b2 b3) = [b0, b1, b2, b3] := by
  apply List.map_injective_iff.mpr fun _ _ => BitVec.eq_of_toNat_eq
  rw [le32_map_toNat, fromLe32_toNat]
  simp only [List.map_cons, List.map_nil, List.cons.injEq, and_true]
  omega

theorem le32_injective : Function.Injective le32 := by
  intro v w h
  have hn := congrArg (List.map BitVec.toNat) h
  simp only [le32_map_toNat, List.cons.injEq, and_true] at hn
  apply BitVec.eq_of_toNat_eq
  omega

theorem le32_eq_iff (w : Word) (b0 b1 b2 b3 : Byte) :
    le32 w = [b0, b1, b2, b3] ↔ fromLe32 b0 b1 b2 b3 = w := by
  rw [← le32_fromLe32, le32_injective.eq_iff, eq_comm]

/-- Settles O7: `le32` is injective and `fromLe32` is its right inverse, both by the base-256 digits of the word. -/
theorem littleEndianPackingIsInvertible : Obligations.LittleEndianPackingIsInvertible :=
  ⟨le32_map_toNat, fromLe32_toNat, le32_eq_iff⟩

end Sys2Proof.Machine
end

section
/-! PROOFS. `ROUND6` of a finite word in its two roundings (R201), and the vectors V-R6-3, V-R6-8, V-R6-12 and V-R6-16. -/

namespace Sys2Proof.Machine

/-- R201: a finite word is rounded to its count `k` of millionths, and `k / 10^6` to binary64. -/
theorem round6_of_fin {w : Word} {neg : Bool} {mant : Nat} {exp : Int} {k : Nat} (fresh : Nat)
    (hw : f32 w = .fin neg mant exp) (hk : microUnits mant exp = k) :
    round6 fresh w = pack64 neg (nearest64 k (10 ^ 6)) := by
  simp only [round6, hw, hk]

/-- V-R6-3: an ordinary value, 3141593 millionths. -/
theorem round6_pi : round6 0 0x40490FDB#32 = 0x400921FB82C2BD7F#64 := by
  rw [round6_of_fin (neg := false) (mant := 13176795) (exp := -22) (k := 3141593) 0 (by decide) (by decide)]
  decide

/-- V-R6-8: a tie, 7812.5 millionths, goes to the even 7812. -/
theorem round6_tie : round6 0 0x3C000000#32 = 0x3F7FFF79C842FA51#64 := by
  rw [round6_of_fin (neg := false) (mant := 2 ^ 23) (exp := -30) (k := 7812) 0 (by decide) (by decide)]
  decide

/-- V-R6-12: a negative value below half a millionth keeps its sign as the negative zero. -/
theorem round6_negZero : round6 0 0xB4D6BF95#32 = 0x8000000000000000#64 := by
  rw [round6_of_fin (neg := true) (mant := 14073749) (exp := -45) (k := 0) 0 (by decide) (by decide)]
  decide

/-- V-R6-16: a value just below 1 is 10^6 millionths, which is 1. -/
theorem round6_belowOne : round6 0 0x3F7FFFF9#32 = 0x3FF0000000000000#64 := by
  rw [round6_of_fin (neg := false) (mant := 16777209) (exp := -24) (k := 10 ^ 6) 0 (by decide) (by decide)]
  decide

/-- Settles O37: the four vectors of `ROUND6`, and on the last one rounding first gives 1 where truncation alone gives 0 (R204). -/
theorem round6AndTruncGiveTheVectorsOfTheSpec : Obligations.Round6AndTruncGiveTheVectorsOfTheSpec := by
  refine ⟨round6_pi, round6_tie, round6_negZero, round6_belowOne, ?_, ?_⟩
  · rw [round6_belowOne]
    decide
  · decide

end Sys2Proof.Machine
end

section
/-! PROOFS. The channel (R64): the environment closes it at any step, no primitive works on it once closed, and only `OPEN` reopens it. -/

namespace Sys2Proof.Machine

/-! ### The primitives on a closed channel -/

theorem txWrite_closed {s : State} (hc : s.chanOpen = false) (bs : List Byte) : (txWrite bs s).1 = false := by
  obtain ⟨-, ho, -⟩ | ⟨hfail, -⟩ := txWrite_cases bs s
  · exact absurd ho (by simp [hc])
  · exact hfail

theorem rxRead_closed {s : State} (hc : s.chanOpen = false) (n : Nat) :
    (rxRead n s).1 = none ∧ (rxRead n s).2.chanOpen = false := by
  obtain ⟨k, -, ho, -⟩ | ⟨hnone, -, hclosed⟩ := rxRead_cases n s
  · exact absurd ho (by simp [hc])
  · exact ⟨hnone, hclosed⟩

/-! ### The effects that leave a closed channel closed -/

@[simp] theorem closeEffect_chanOpen (s : State) : (closeEffect s).chanOpen = false := rfl

@[simp] theorem accept_chanOpen (cmd : Int) (args : List Int) (s : State) :
    (accept cmd args s).chanOpen = s.chanOpen := by
  obtain ⟨e, arg, -, ha⟩ | ⟨info, -, ha⟩ := accept_cases cmd args s <;> simp [ha]

@[simp] theorem writeStep_chanOpen (s : State) : (writeStep s).chanOpen = s.chanOpen := by
  obtain ⟨-, hw⟩ | ⟨-, hw⟩ := writeStep_cases s <;> simp [hw]

theorem present_keeps_closed {i : Instr} {f : State → State} {s t : State} (hc : s.chanOpen = false)
    (hf : (f s).chanOpen = false) (h : present i f s = .next t) : t.chanOpen = false := by
  by_cases hs : s.fsmState = .idle
  · rw [present_idle hs] at h
    cases h
    exact hf
  · rw [present_busy hs] at h
    cases h
    exact hc

/-- A read on a closed channel draws `closed`, so its one outcome is the error (R164). -/
theorem readStep_keeps_closed {s t : State} (hc : s.chanOpen = false) (h : readStep s = .next t) : t.chanOpen = false := by
  obtain ⟨hnone, hclosed⟩ := rxRead_closed hc s.expBytes.val
  obtain ⟨-, ⟨-, rfl⟩ | ⟨r, hr, -⟩⟩ := readStep_next h
  · exact hclosed
  · exact absurd hr (by simp [hnone])

theorem ownStep_keeps_closed {s t : State} (hc : s.chanOpen = false) (h : ownStep s = .next t) : t.chanOpen = false := by
  cases hs : s.fsmState <;> simp only [ownStep, hs] at h
  case idle => cases h; exact hc
  case requestSent => cases h; simpa using hc
  case awaitingResponse => exact readStep_keeps_closed hc h
  case decoded =>
    obtain ⟨c, e, ws, -, -, -, ⟨v, -, rfl⟩ | ⟨x, -, rfl⟩⟩ := deliverDecoded_next h
    · exact hc
    · exact hc
  case failed =>
    obtain ⟨info, -, rfl⟩ := deliverFailed_next h
    exact hc

/-! ### Operations -/

/-- The four kinds of operations: codec (R130), `EXEC` and the commands (R160), `OPEN` (R167) and `CLOSE` (R168). -/
theorem instr_kinds (i : Instr) :
    opWaits i = false ∨ (∃ cmd args, i.execOperands? = some (cmd, args)) ∨ (∃ f n, i = .openChan f n) ∨ i = .closeChan := by
  cases i <;> simp [opWaits, Instr.execOperands?]

theorem exec_keeps_closed_or_opens {i : Instr} {s t : State} (hc : s.chanOpen = false) (h : exec i s = .next t) :
    t.chanOpen = false ∨ ∃ f n, i = .openChan f n := by
  obtain hcodec | ⟨cmd, args, hops⟩ | hopen | rfl := instr_kinds i
  · obtain ⟨r, hr⟩ := exec_of_not_waits hcodec
    rw [hr] at h
    cases h
    exact .inl hc
  · rw [exec_of_execOperands hops] at h
    exact .inl (present_keeps_closed hc (by simpa using hc) h)
  · exact .inr hopen
  · exact .inl (present_keeps_closed hc (closeEffect_chanOpen s) h)

/-! ### Steps -/

/-- The channel is closed in the state an event carries: the one it starts from, or for an outside event the one it leaves. -/
def Event.Closed : Event → Prop
  | .run _ u => u.chanOpen = false
  | .refuse _ => True
  | .own u => u.chanOpen = false
  | .outside u => u.chanOpen = false

theorem presented_closed {s : State} (hc : s.chanOpen = false) (i : Instr) : (presented i s).Closed := by
  obtain ⟨hp, -⟩ | ⟨hp, -⟩ := presented_cases i s <;> rw [hp] <;> exact hc

theorem ownMove_closed {s : State} (hc : s.chanOpen = false) : (ownMove s).Closed := by
  obtain ⟨i, is, -, -, hm⟩ | ⟨-, hm⟩ := ownMove_cases s <;> rw [hm] <;> exact hc

theorem eventOf_closed {s : State} (hc : s.chanOpen = false) (x : Input) : (eventOf x s).Closed := by
  cases x with
  | op r =>
    cases hd : decodeRequest r with
    | ok i => simpa only [eventOf, hd] using presented_closed hc i
    | error e => simp only [eventOf, hd, Event.Closed]
  | block => exact ownMove_closed hc
  | arrive bs => exact hc
  | chanClosed => rfl
  | reset kept => rfl

theorem nextEvent_closed {s : State} (hc : s.chanOpen = false) : (nextEvent s).Closed := by
  obtain ⟨x, xs, -, he⟩ | ⟨-, he⟩ := nextEvent_cases s
  · rw [he]; exact eventOf_closed (s := { s with inputs := xs }) hc x
  · rw [he]; exact ownMove_closed hc

theorem step_keeps_closed_or_opens {s t : State} (hc : s.chanOpen = false) (h : step s = .next t) :
    t.chanOpen = false ∨ ∃ f n u, nextEvent s = .run (.openChan f n) u := by
  have hev := nextEvent_closed hc
  unfold step at h
  cases he : nextEvent s with
  | run i u =>
    rw [he] at h hev
    obtain hclosed | ⟨f, n, rfl⟩ := exec_keeps_closed_or_opens hev h
    · exact .inl hclosed
    · exact .inr ⟨f, n, u, rfl⟩
  | refuse e => rw [he] at h; cases h
  | own u => rw [he] at h hev; exact .inl (ownStep_keeps_closed hev h)
  | outside u => rw [he] at h hev; cases h; exact .inl hev

theorem step_chanClosed {s : State} {rest : List Input} (h : s.inputs = .chanClosed :: rest) :
    step s = .next { s with inputs := rest, chanOpen := false } := by
  simp only [step, nextEvent_input h, eventOf, envClose]

/-- Settles O52: a step or an operation on a closed channel leaves it closed or is an `OPEN`. -/
theorem onlyOpenReopensTheChannel : Obligations.OnlyOpenReopensTheChannel := by
  refine ⟨fun s rest => step_chanClosed, fun s bs hc => txWrite_closed hc bs, fun s n hc => (rxRead_closed hc n).1,
    fun i s t hc h ho => ?_, fun s t hc h ho => ?_⟩
  · exact (exec_keeps_closed_or_opens hc h).resolve_left (by simp [ho])
  · exact (step_keeps_closed_or_opens hc h).resolve_left (by simp [ho])

end Sys2Proof.Machine
end

section
/-! PROOFS. The request frames of R101: what acceptance puts in `TX_FRAME`, and the bytes of each frame. -/

namespace Sys2Proof.Machine

/-! ### The checksum as a sum -/

/-- R140: the carries discarded one by one are the sum taken mod 256. -/
theorem checksum_eq_ofNat_sum (s : List Byte) : checksum s = BitVec.ofNat 8 ((s.map BitVec.toNat).sum % 256) := by
  induction s with
  | nil => rfl
  | cons b s ih =>
    apply BitVec.eq_of_toNat_eq
    simp [checksum_cons, ih]

/-! ### A passed pre-send check sends `ENCODE`'s frame -/

theorem presendCheck_nil {c : Byte} {e : CmdEntry} (he : cmdEntry? c = some e) (hargc : e.argc = 0) :
    presendCheck c.toNat [] true = .ok (e, none) := by
  simp [presendCheck, he, hargc]

theorem presendCheck_singleton {c : Byte} {e : CmdEntry} {a : Int} {w : Word} (he : cmdEntry? c = some e)
    (hargc : e.argc = 1) (ha : toWord? a = some w) : presendCheck c.toNat [a] true = .ok (e, some w) := by
  simp [presendCheck, he, hargc, ha]

/-- R162: an `EXEC` that passes the checks in `IDLE` leaves the frame of its table entry and argument in `TX_FRAME`. -/
theorem exec_txFrame_of_presendCheck {i : Instr} {cmd : Int} {args : List Int} {e : CmdEntry} {arg : Option Word} {s : State}
    (hops : i.execOperands? = some (cmd, args)) (hcheck : presendCheck cmd args true = .ok (e, arg))
    (hidle : s.fsmState = .idle) (hopen : s.chanOpen = true) :
    ∃ t, exec i s = .next t ∧ t.txFrame = frame e.id (requestPayload e arg) := by
  have hacc : accept cmd args s = latch e arg (clearTransaction s) := by simp only [accept, hopen, hcheck]
  exact ⟨_, by rw [exec_of_execOperands hops, present_idle hidle, hacc], latch_txFrame e arg _⟩

/-! ### The bytes of the frames -/

/-- R101: each fixed request is a command without arguments, and its bytes are the frame of its table entry. -/
theorem fixedRequests_are_frames : ∀ p ∈ fixedRequests, ∃ e ∈ cmdRows, cmdEntry? e.id = some e ∧ e.argc = 0 ∧
    p.1.execOperands? = some ((e.id.toNat : Int), []) ∧ frame e.id (requestPayload e none) = p.2 := by
  decide

/-- R93, R101: the indexed write of a word under any command id. -/
theorem frame_iwPayload (cmd : Byte) (w : Word) :
    frame cmd (iwPayload w) = [0xBB#8, cmd, 0x05#8, 0x00#8, w.extractLsb' 0 8, w.extractLsb' 8 8, w.extractLsb' 16 8,
      w.extractLsb' 24 8, BitVec.ofNat 8 ((0xBB + cmd.toNat + 0x05 + 0x00 + (w.extractLsb' 0 8).toNat +
        (w.extractLsb' 8 8).toNat + (w.extractLsb' 16 8).toNat + (w.extractLsb' 24 8).toNat) % 256)] := by
  have hbody : frameBody cmd (iwPayload w) = [0xBB#8, cmd, 0x05#8, 0x00#8, w.extractLsb' 0 8, w.extractLsb' 8 8,
      w.extractLsb' 16 8, w.extractLsb' 24 8] := rfl
  rw [frame, checksum_eq_ofNat_sum, hbody]
  simp [Nat.add_assoc]

/-- Settles O20: a command that passes its checks sends the frame of its table entry, whose bytes are computed for the 13 fixed requests and
follow from `frame_iwPayload` for every word of SET_WORLD_FRAME_ID. -/
theorem requestFramesAreTheListedBytes : Obligations.RequestFramesAreTheListedBytes := by
  refine ⟨fun p hp s hidle hopen => ?_, fun w s hidle hopen => ?_⟩
  · obtain ⟨e, -, he, hargc, hops, hframe⟩ := fixedRequests_are_frames p hp
    rw [← hframe]
    exact exec_txFrame_of_presendCheck hops (presendCheck_nil he hargc) hidle hopen
  · obtain ⟨e, -, he, hargc, hshape⟩ : ∃ e ∈ cmdRows, cmdEntry? 0x1F#8 = some e ∧ e.argc = 1 ∧ e.shape = .iw := by decide
    have hops : (Instr.setWorldFrameId [(w.toNat : Int)]).execOperands? = some (((0x1F#8).toNat : Int), [(w.toNat : Int)]) := rfl
    obtain ⟨t, ht, hframe⟩ := exec_txFrame_of_presendCheck hops (presendCheck_singleton he hargc (toWord?_toNat w)) hidle hopen
    refine ⟨t, ht, ?_⟩
    rw [hframe, cmdEntry?_id he, requestPayload, hshape]
    exact frame_iwPayload 0x1F#8 w

end Sys2Proof.Machine
end

section
/-! PROOFS. The checksum of R140 and R141: the sum mod 256, its laws, and its value on a frame. -/

namespace Sys2Proof.Machine

/-! ### Laws of the checksum -/

theorem checksum_toNat (s : List Byte) : (checksum s).toNat = (s.map BitVec.toNat).sum % 256 := by
  simp [checksum_eq_ofNat_sum]

theorem checksum_perm {s t : List Byte} (h : s.Perm t) : checksum s = checksum t := by
  rw [checksum_eq_ofNat_sum, checksum_eq_ofNat_sum, (h.map BitVec.toNat).sum_eq]

theorem checksum_append (s t : List Byte) : checksum (s ++ t) = checksum s + checksum t := by
  rw [checksum, List.foldl_append, checksum_foldl, ← checksum]

/-- R141: the checksum sees every change of one byte, because the rest of the sum cancels. -/
theorem checksum_single_byte_iff (s t : List Byte) (a b : Byte) :
    checksum (s ++ a :: t) = checksum (s ++ b :: t) ↔ a = b := by
  simp only [checksum_append, checksum_cons, BitVec.add_right_inj, BitVec.add_left_inj]

/-- R141: what one byte gains and another loses cancels in the sum. -/
theorem checksum_cancelling_change (s t u : List Byte) (a b d : Byte) :
    checksum (s ++ (a + d) :: t ++ (b - d) :: u) = checksum (s ++ a :: t ++ b :: u) := by
  simp only [checksum_append, checksum_cons]
  ring

/-! ### The checksum of a frame -/

@[simp] theorem frame_getLast? (cmd : Byte) (p : List Byte) : (frame cmd p).getLast? = some (checksum (frameBody cmd p)) := by
  simp [frame]

@[simp] theorem frame_dropLast (cmd : Byte) (p : List Byte) : (frame cmd p).dropLast = frameBody cmd p := by
  simp [frame]

/-- R90, R140: the marker, the command id, the length and the payload, summed mod 256. -/
theorem checksum_frameBody_toNat (cmd : Byte) (p : List Byte) : (checksum (frameBody cmd p)).toNat =
    (0xBB + cmd.toNat + p.length + (p.map BitVec.toNat).sum) % 256 := by
  have hsum : ((frameBody cmd p).map BitVec.toNat).sum =
      0xBB + (cmd.toNat + (p.length % 256 + (p.map BitVec.toNat).sum)) := by
    simp [frameBody, Config.startByte]
  rw [checksum_toNat, hsum]
  omega

/-- Settles O8: the carries discarded one by one leave the sum mod 256, which no reordering changes. -/
theorem checksumIsTheSumModulo256 : Obligations.ChecksumIsTheSumModulo256 :=
  ⟨checksum_toNat, fun _ _ => checksum_perm, fun cmd p => by rw [frame_getLast?, frame_dropLast]⟩

/-- Settles O9: the laws of a sum in the group of bytes under addition mod 256. -/
theorem checksumObeysItsArithmeticLaws : Obligations.ChecksumObeysItsArithmeticLaws :=
  ⟨fun s => ⟨Nat.le_of_lt_succ (checksum s).isLt, checksum_toNat s⟩, fun _ _ => checksum_perm, checksum_append,
    checksum_single_byte_iff, checksum_cancelling_change⟩

end Sys2Proof.Machine
end

section
/-! PROOFS. Operands in their range are the numbers of bytes: what the range checks of R105 read from the numbers of a byte sequence. -/

namespace Sys2Proof.Machine

theorem exists_byte_of_range {n : Int} (h0 : 0 ≤ n) (h : n < 256) : ∃ b : Byte, n = b.toNat :=
  ⟨_, toByte?_eq_some.mp (toByte?_of_range h0 h)⟩

theorem exists_byteArgs_of_all {ns : List Int} (h : ∀ b ∈ ns, 0 ≤ b ∧ b < 256) : ∃ bs, ns = byteArgs bs :=
  ⟨_, toBytes?_eq_some.mp (toBytes?_of_all h)⟩

theorem ofInt_toNat_byte (b : Byte) : BitVec.ofInt 8 (b.toNat : Int) = b := by
  rw [BitVec.ofInt_natCast, BitVec.ofNat_toNat, BitVec.setWidth_eq]

@[simp] theorem byteArgs_length (bs : List Byte) : (byteArgs bs).length = bs.length := List.length_map _

@[simp] theorem byteArgs_map_ofInt (bs : List Byte) : (byteArgs bs).map (BitVec.ofInt 8) = bs := by
  simp only [byteArgs, List.map_map, Function.comp_def, ofInt_toNat_byte, List.map_id']

theorem byteArgs_sum (bs : List Byte) : (byteArgs bs).sum = ((bs.map BitVec.toNat).sum : Nat) := by
  simp [byteArgs, Nat.cast_list_sum, Function.comp_def]

theorem byteArgs_getElem? (bs : List Byte) (i : Nat) : (byteArgs bs)[i]? = bs[i]?.map fun b => (b.toNat : Int) :=
  List.getElem?_map

/-- The checksum byte of a frame as the number R142 and R146 compute. -/
theorem checksum_frameBody_toInt (cmd : Byte) (p : List Byte) : ((checksum (frameBody cmd p)).toNat : Int) =
    (0xBB + cmd.toNat + p.length + (byteArgs p).sum) % 256 := by
  rw [checksum_frameBody_toNat, byteArgs_sum]
  push_cast
  rfl

theorem ofInt_frameSum (cmd : Byte) (p : List Byte) :
    BitVec.ofInt 8 ((0xBB + cmd.toNat + p.length + (byteArgs p).sum) % 256) = checksum (frameBody cmd p) := by
  rw [← checksum_frameBody_toInt, ofInt_toNat_byte]

end Sys2Proof.Machine
end

section
/-! PROOFS. `ENCODE` and `ENCODE_NP` (R130, R142, R143, R148). -/

namespace Sys2Proof.Machine

theorem exec_encode (cmd : Int) (payload : List Int) (s : State) :
    exec (.encode cmd payload) s = .next (withResult s (directResult .frame (codecEncode cmd payload))) := rfl

theorem exec_encodeNp (cmd : Int) (s : State) : exec (.encodeNp cmd) s = exec (.encode cmd []) s := rfl

theorem codecEncode_malformed {cmd : Int} {payload : List Int} (h : toByte? cmd = none ∨ toBytes? payload = none) :
    codecEncode cmd payload = .error .malformedArg := by
  unfold codecEncode
  obtain h | h := h
  · simp [h]
  · cases toByte? cmd <;> simp [h]

theorem codecEncode_tooLong (cmd : Byte) {p : List Byte} (h : 255 < p.length) :
    codecEncode cmd.toNat (byteArgs p) = .error (.payloadTooLong p.length) := by
  simp [codecEncode, Config.maxPayload, h]

theorem codecEncode_ok (cmd : Byte) {p : List Byte} (h : p.length ≤ 255) :
    codecEncode cmd.toNat (byteArgs p) = .ok (frame cmd p) := by
  simp [codecEncode, Config.maxPayload, Nat.not_lt.mpr h]

theorem requestPayload_le (e : CmdEntry) (arg : Option Word) : (requestPayload e arg).length ≤ 255 := by
  rw [requestPayload_length]
  cases e.shape <;> decide

/-- Settles O10: no codec operation waits, and the frame acceptance latches is short enough to be `ENCODE`'s. -/
theorem codecOperationsArePure : Obligations.CodecOperationsArePure := by
  refine ⟨fun i hi => ?_, fun e arg s => ?_⟩
  · have hw : opWaits i = false := by
      obtain ⟨c, p, rfl⟩ | ⟨c, rfl⟩ | ⟨r, n, rfl⟩ | ⟨f, rfl⟩ := hi <;> rfl
    exact exec_of_not_waits hw
  · rw [codecEncode_ok e.id (requestPayload_le e arg), latch_txFrame]

/-- Settles O11: an operand out of range is no byte; operands in range are the numbers of bytes, of which `ENCODE` gives the frame unless the
payload is too long. -/
theorem encodeBuildsTheFrameOrRefuses : Obligations.EncodeBuildsTheFrameOrRefuses := by
  intro cmd payload s
  refine ⟨fun h => ?_, fun h0 h1 hp hlen => ?_, fun h0 h1 hp hlen => ?_⟩
  · have hnone : toByte? cmd = none ∨ toBytes? payload = none := by
      obtain h | h | ⟨b, hb, h⟩ := h
      · exact .inl (toByte?_eq_none.mpr (.inl h))
      · exact .inl (toByte?_eq_none.mpr (.inr h))
      · exact .inr (toBytes?_of_mem hb h)
    rw [exec_encode, codecEncode_malformed hnone]
    rfl
  all_goals
    obtain ⟨c, rfl⟩ := exists_byte_of_range h0 h1
    obtain ⟨p, rfl⟩ := exists_byteArgs_of_all hp
    rw [byteArgs_length] at hlen ⊢
  · rw [exec_encode, codecEncode_tooLong c hlen]
    rfl
  · rw [exec_encode, codecEncode_ok c hlen, ofInt_frameSum, ofInt_toNat_byte, byteArgs_map_ofInt]
    rfl

/-- Settles O16: the last byte of `ENCODE`'s frame is the checksum of the bytes before it. -/
theorem encodeChecksumByteIsDetermined : Obligations.EncodeChecksumByteIsDetermined := by
  intro cmd payload hlen
  exact ⟨_, codecEncode_ok cmd hlen, by rw [frame_getLast?, Option.map_some, checksum_frameBody_toNat]⟩

/-- Settles O12: `ENCODE_NP` is `ENCODE` of the empty payload, so O11 gives its two outcomes. -/
theorem encodeNpIsEncodeOfAnEmptyPayload : Obligations.EncodeNpIsEncodeOfAnEmptyPayload := by
  intro cmd s
  obtain ⟨hbad, -, hok⟩ := encodeBuildsTheFrameOrRefuses cmd [] s
  refine ⟨exec_encodeNp cmd s, fun h0 h1 => ?_, fun h => ?_⟩
  · simpa [exec_encodeNp] using hok h0 h1 (by simp) (by simp)
  · rw [exec_encodeNp]
    exact hbad (h.imp_right .inl)

end Sys2Proof.Machine
end

section
/-! PROOFS. `DECODE_FLOATS` (R144, R145): consecutive groups of four bytes as words. -/

namespace Sys2Proof.Machine

theorem exec_decodeFloats (raw : List Int) (count : Int) (s : State) :
    exec (.decodeFloats raw count) s = .next (withResult s (directResult .words (codecDecodeFloats raw count))) := rfl

/-- The `i`-th word is `from_le32` of bytes `4i .. 4i+3` (R144). -/
theorem wordsOf?_getElem? {bs : List Byte} {ws : List Word} {i : Nat} (h : wordsOf? bs = some ws) (hi : i < ws.length) :
    ∃ b0 b1 b2 b3, bs[4 * i]? = some b0 ∧ bs[4 * i + 1]? = some b1 ∧ bs[4 * i + 2]? = some b2 ∧ bs[4 * i + 3]? = some b3 ∧
      ws[i]? = some (fromLe32 b0 b1 b2 b3) := by
  induction bs using wordsOf?.induct generalizing ws i with
  | case1 => cases h; simp at hi
  | case2 b0 b1 b2 b3 rest vs hvs ih =>
    rw [wordsOf?_cons, hvs] at h
    cases h
    cases i with
    | zero => exact ⟨b0, b1, b2, b3, rfl, rfl, rfl, rfl, rfl⟩
    | succ i => exact ih hvs (Nat.lt_of_succ_lt_succ hi)
  | case3 b0 b1 b2 b3 rest hnone ih => simp [wordsOf?_cons, hnone] at h
  | case4 bs hnil hcons => simp [wordsOf?] at h

theorem codecDecodeFloats_malformed {raw : List Int} {count : Int} (h : count < 0 ∨ 255 < count ∨ toBytes? raw = none) :
    codecDecodeFloats raw count = .error .malformed := by
  unfold codecDecodeFloats
  cases hraw : toBytes? raw with
  | none => rfl
  | some bs =>
    have hcount : count < 0 ∨ (Config.maxDecodeCount : Int) < count := h.imp_right fun h => h.resolve_right (by simp [hraw])
    simp [hcount]

theorem count_in_range {n : Nat} (hn : n ≤ 255) : ¬((n : Int) < 0 ∨ (Config.maxDecodeCount : Int) < n) := by
  simp only [Config.maxDecodeCount]
  omega

theorem codecDecodeFloats_wrongLength {bs : List Byte} {n : Nat} (hn : n ≤ 255) (h : (bs.length : Int) ≠ 4 * n) :
    codecDecodeFloats (byteArgs bs) n = .error (.lengthMismatch bs.length) := by
  simp only [codecDecodeFloats, toBytes?_byteArgs, if_neg (count_in_range hn), if_pos h]

theorem codecDecodeFloats_ok {bs : List Byte} {ws : List Word} {n : Nat} (hn : n ≤ 255) (h : (bs.length : Int) = 4 * n)
    (hws : wordsOf? bs = some ws) : codecDecodeFloats (byteArgs bs) n = .ok ws := by
  simp only [codecDecodeFloats, toBytes?_byteArgs, if_neg (count_in_range hn), if_neg (not_not.mpr h), hws]

/-- Settles O13: the operand checks in their order, and then the words group by group. -/
theorem decodeFloatsReadsLittleEndianWords : Obligations.DecodeFloatsReadsLittleEndianWords := by
  intro raw count s
  refine ⟨fun h => ?_, fun h0 h1 hraw hlen => ?_, fun h0 h1 hraw hlen => ?_⟩
  · have hbad : count < 0 ∨ 255 < count ∨ toBytes? raw = none :=
      h.imp_right (Or.imp_right fun ⟨b, hb, hr⟩ => toBytes?_of_mem hb hr)
    rw [exec_decodeFloats, codecDecodeFloats_malformed hbad]
    rfl
  all_goals
    obtain ⟨n, rfl⟩ := Int.eq_ofNat_of_zero_le h0
    obtain ⟨bs, rfl⟩ := exists_byteArgs_of_all hraw
    rw [byteArgs_length] at hlen
  · rw [exec_decodeFloats, codecDecodeFloats_wrongLength (by omega) hlen, byteArgs_length]
    rfl
  · obtain ⟨ws, hws, hn⟩ := wordsOf?_of_length (n := n) (bs := bs) (by omega)
    refine ⟨ws, ?_, by rw [hn], fun i hi => ?_⟩
    · rw [exec_decodeFloats, codecDecodeFloats_ok (by omega) hlen hws]
      rfl
    · obtain ⟨b0, b1, b2, b3, h0, h1, h2, h3, hw⟩ := wordsOf?_getElem? (i := i) hws (by omega)
      refine ⟨b0.toNat, b1.toNat, b2.toNat, b3.toNat, ?_⟩
      simp [byteArgs_getElem?, h0, h1, h2, h3, hw, fromLe32_toNat]

end Sys2Proof.Machine
end

section
/-! PROOFS. `DECODE_FRAME` (R146): its checks in their order on the bytes of a frame, and that it inverts `ENCODE` (R147). -/

namespace Sys2Proof.Machine

theorem exec_decodeFrame (f : List Int) (s : State) :
    exec (.decodeFrame f) s = .next (withResult s (directResult (fun p => .split p.1 p.2) (codecDecodeFrame f))) := rfl

@[simp] theorem codecDecodeFrame_byteArgs (f : List Byte) : codecDecodeFrame (byteArgs f) = splitFrame f := by
  simp only [codecDecodeFrame, toBytes?_byteArgs]

theorem exec_decodeFrame_byteArgs (f : List Byte) (s : State) : exec (.decodeFrame (byteArgs f)) s =
    .next (withResult s (directResult (fun p => .split p.1 p.2) (splitFrame f))) := by
  rw [exec_decodeFrame, codecDecodeFrame_byteArgs]

theorem exec_decodeFrame_malformed {f : List Int} (h : toBytes? f = none) (s : State) :
    exec (.decodeFrame f) s = .next (withResult s (.err .framingError .malformed)) := by
  simp only [exec_decodeFrame, codecDecodeFrame, h]
  rfl

/-! ### The checks on bytes -/

theorem splitFrame_short {f : List Byte} (h : f.length < 4) : splitFrame f = .error (.shortFrame f.length) := by
  match f, h with
  | [], _ => rfl
  | [_], _ => rfl
  | [_, _], _ => rfl
  | [_, _, _], _ => rfl

/-- The checks after the first, on a header with bytes behind it (R146). -/
theorem splitFrame_header {start cmd len : Byte} {rest : List Byte} (hrest : rest ≠ []) :
    splitFrame (start :: cmd :: len :: rest) =
      if start ≠ Config.startByte then .error (.badStart start)
      else if rest.length < len.toNat + 1 then .error (.truncated (rest.length + 3))
      else if len.toNat + 1 < rest.length then .error (.trailingBytes (rest.length + 3))
      else if rest.getLast hrest ≠ checksum (start :: cmd :: len :: rest.take len.toNat) then
        .error (.checksum (checksum (start :: cmd :: len :: rest.take len.toNat)) (rest.getLast hrest))
      else .ok (cmd, rest.take len.toNat) := by
  obtain ⟨b, bs, rfl⟩ := List.exists_cons_of_ne_nil hrest
  simp [splitFrame, Config.frameOverhead, Nat.add_comm 3]

/-- A header whose length byte is the payload's length, the payload and one byte more: a frame's bytes up to its checksum, and that byte. -/
theorem header_eq_frameBody (cmd chk : Byte) {len : Byte} {p : List Byte} (h : p.length = len.toNat) :
    Config.startByte :: cmd :: len :: (p ++ [chk]) = frameBody cmd p ++ [chk] := by
  simp [frameBody, h]

/-- The last check, on bytes whose marker and length are right: the received checksum against the one of the bytes before it. -/
theorem splitFrame_checksum (cmd chk : Byte) {p : List Byte} (h : p.length ≤ 255) :
    splitFrame (frameBody cmd p ++ [chk]) =
      if chk = checksum (frameBody cmd p) then .ok (cmd, p) else .error (.checksum (checksum (frameBody cmd p)) chk) := by
  have hlen : (BitVec.ofNat 8 p.length).toNat = p.length := Nat.mod_eq_of_lt (by omega)
  have hbody : Config.startByte :: cmd :: BitVec.ofNat 8 p.length :: p = frameBody cmd p := rfl
  rw [← header_eq_frameBody cmd chk hlen.symm, splitFrame_header (by simp)]
  simp [hlen, hbody]

theorem splitFrame_frame (cmd : Byte) {p : List Byte} (h : p.length ≤ 255) : splitFrame (frame cmd p) = .ok (cmd, p) := by
  rw [frame, splitFrame_checksum cmd _ h, if_pos rfl]

/-! ### The operand of `DECODE_FRAME` as bytes -/

theorem toNat_eq_startByte {b : Byte} : (b.toNat : Int) = 0xBB ↔ b = Config.startByte := by
  rw [← BitVec.toNat_inj]
  exact Nat.cast_inj (R := Int) (n := 0xBB)

/-- In-range numbers that begin with a header are the bytes of one. -/
theorem exists_header_of_all {start cmd len : Int} {rest : List Int}
    (h : ∀ b ∈ start :: cmd :: len :: rest, 0 ≤ b ∧ b < 256) :
    ∃ (a c l : Byte) (g : List Byte), start = a.toNat ∧ cmd = c.toNat ∧ len = l.toNat ∧ rest = byteArgs g := by
  simp only [List.forall_mem_cons] at h
  obtain ⟨⟨ha0, ha⟩, ⟨hc0, hc⟩, ⟨hl0, hl⟩, hg⟩ := h
  obtain ⟨a, ha⟩ := exists_byte_of_range ha0 ha
  obtain ⟨c, hc⟩ := exists_byte_of_range hc0 hc
  obtain ⟨l, hl⟩ := exists_byte_of_range hl0 hl
  obtain ⟨g, hg⟩ := exists_byteArgs_of_all hg
  exact ⟨a, c, l, g, ha, hc, hl, hg⟩

theorem byteArgs_eq_concat {g : List Byte} {payload : List Int} {chk : Int} (h : byteArgs g = payload ++ [chk]) :
    ∃ (p : List Byte) (k : Byte), g = p ++ [k] ∧ payload = byteArgs p ∧ chk = k.toNat := by
  obtain ⟨p, q, rfl, rfl, hq⟩ := List.map_eq_append_iff.mp h
  obtain ⟨k, rfl, rfl⟩ := List.map_eq_singleton_iff.mp hq
  exact ⟨p, k, rfl, rfl, rfl⟩

/-- Settles O14: numbers in range are bytes, whose checks stand in `splitFrame_header` in their order, the last of them in
`splitFrame_checksum`. -/
theorem decodeFrameChecksInOrder : Obligations.DecodeFrameChecksInOrder := by
  intro f s
  refine ⟨fun ⟨b, hb, hr⟩ => exec_decodeFrame_malformed (toBytes?_of_mem hb hr) s, fun hf hlen => ?_,
    fun hf start cmd len rest hcons hrest => ?_⟩
  · obtain ⟨g, rfl⟩ := exists_byteArgs_of_all hf
    rw [byteArgs_length] at hlen ⊢
    rw [exec_decodeFrame_byteArgs, splitFrame_short hlen]
    rfl
  · obtain ⟨a, c, l, g, rfl, rfl, rfl, rfl⟩ := exists_header_of_all (hcons ▸ hf)
    obtain rfl : f = byteArgs (a :: c :: l :: g) := hcons
    have hg : g ≠ [] := fun h => hrest (by rw [h]; rfl)
    simp only [toNat_eq_startByte, ne_eq, exec_decodeFrame_byteArgs, byteArgs_length, List.length_cons, ofInt_toNat_byte]
    refine ⟨fun hs => ?_, ?_, ?_, ?_⟩
    · rw [splitFrame_header hg, if_pos hs]
      rfl
    · rintro rfl hlen
      rw [splitFrame_header hg, if_neg (not_not.mpr rfl), if_pos (by omega)]
      rfl
    · rintro rfl hlen
      rw [splitFrame_header hg, if_neg (not_not.mpr rfl), if_neg (by omega), if_pos (by omega)]
      rfl
    · rintro payload chk rfl hsplit hlen
      obtain ⟨p, k, rfl, rfl, rfl⟩ := byteArgs_eq_concat hsplit
      have hlen : p.length = l.toNat := by rwa [byteArgs_length, Nat.cast_inj] at hlen
      have hle : p.length ≤ 255 := by omega
      rw [header_eq_frameBody c k hlen, splitFrame_checksum c k hle, ← hlen, ofInt_frameSum, ← checksum_frameBody_toInt,
        Nat.cast_inj, BitVec.toNat_inj, byteArgs_map_ofInt, ofInt_toNat_byte]
      exact ⟨fun h => by rw [if_neg h]; rfl, fun h => by rw [if_pos h]; rfl⟩

/-- Settles O15: `ENCODE` gives the frame, whose length field and checksum pass every check of `DECODE_FRAME`. -/
theorem decodeFrameInvertsEncode : Obligations.DecodeFrameInvertsEncode := by
  intro cmd payload hlen
  exact ⟨frame cmd payload, codecEncode_ok cmd hlen, by rw [codecDecodeFrame_byteArgs, splitFrame_frame cmd hlen]⟩

end Sys2Proof.Machine
end

section
/-! PROOFS. Acceptance (R160 to R162): each outcome of the pre-send checks and the state it leaves. -/

namespace Sys2Proof.Machine

/-! ### The pre-send checks, by the first that fails (R161) -/

theorem presendCheck_not_byte {cmd : Int} (h : cmd < 0 ∨ 256 ≤ cmd) (args : List Int) (chan : Bool) :
    presendCheck cmd args chan = .error .malformedArg := by
  simp only [presendCheck, toByte?_eq_none.mpr h]

theorem presendCheck_unassigned {c : Byte} (h : cmdEntry? c = none) (args : List Int) (chan : Bool) :
    presendCheck c.toNat args chan = .error (.unassignedCmd c) := by
  simp only [presendCheck, toByte?_toNat, h]

theorem presendCheck_arity {c : Byte} {e : CmdEntry} {args : List Int} (he : cmdEntry? c = some e)
    (hlen : args.length ≠ e.argc.val) (chan : Bool) : presendCheck c.toNat args chan = .error (.arity args.length) := by
  simp only [presendCheck, toByte?_toNat, he, if_pos hlen]

/-- An argument list of the table's count is empty or one number (R100). -/
theorem args_of_length_eq_argc {e : CmdEntry} {args : List Int} (hlen : args.length = e.argc.val) :
    args = [] ∨ ∃ a, args = [a] := by
  rw [← List.length_eq_zero_iff, ← List.length_eq_one_iff]
  omega

theorem presendCheck_not_word {c : Byte} {e : CmdEntry} {args : List Int} (he : cmdEntry? c = some e)
    (hlen : args.length = e.argc.val) (hbad : ∃ a ∈ args, a < 0 ∨ 2 ^ 32 ≤ a) (chan : Bool) :
    presendCheck c.toNat args chan = .error .malformedArg := by
  obtain ⟨a, ha, hrange⟩ := hbad
  obtain rfl | ⟨b, rfl⟩ := args_of_length_eq_argc hlen
  · cases ha
  · obtain rfl := List.mem_singleton.mp ha
    simp only [presendCheck, toByte?_toNat, he, if_neg (not_not.mpr hlen), toWord?_eq_none.mpr hrange]

/-- With well-formed arguments only the channel is left to check. -/
theorem presendCheck_of_words {c : Byte} {e : CmdEntry} {args : List Int} (he : cmdEntry? c = some e)
    (hlen : args.length = e.argc.val) (hargs : ∀ a ∈ args, 0 ≤ a ∧ a < 2 ^ 32) (chan : Bool) :
    presendCheck c.toNat args chan = if chan then .ok (e, argWord args) else .error .closed := by
  obtain rfl | ⟨a, rfl⟩ := args_of_length_eq_argc hlen
  · simp only [presendCheck, toByte?_toNat, he, if_neg (not_not.mpr hlen)]
    rfl
  · obtain ⟨h0, h1⟩ := List.forall_mem_singleton.mp hargs
    simp only [presendCheck, toByte?_toNat, he, if_neg (not_not.mpr hlen), toWord?_of_range h0 h1]
    rfl

/-! ### An `EXEC` in `IDLE` -/

theorem exec_accept {i : Instr} {cmd : Int} {args : List Int} {s : State} (hops : i.execOperands? = some (cmd, args))
    (hidle : s.fsmState = .idle) : exec i s = .next (accept cmd args s) := by
  rw [exec_of_execOperands hops, present_idle hidle]

theorem exec_of_presendCheck_ok {i : Instr} {cmd : Int} {args : List Int} {e : CmdEntry} {arg : Option Word} {s : State}
    (hops : i.execOperands? = some (cmd, args)) (hidle : s.fsmState = .idle)
    (hcheck : presendCheck cmd args s.chanOpen = .ok (e, arg)) : exec i s = .next (latch e arg (clearTransaction s)) := by
  simp only [exec_accept hops hidle, accept, hcheck]

theorem exec_of_presendCheck_error {i : Instr} {cmd : Int} {args : List Int} {info : Info} {s : State}
    (hops : i.execOperands? = some (cmd, args)) (hidle : s.fsmState = .idle)
    (hcheck : presendCheck cmd args s.chanOpen = .error info) : exec i s = .next (presendFailed info s) := by
  simp only [exec_accept hops hidle, accept, hcheck]
  rfl

/-- Settles O21: each clause is the outcome of one check of R161, and a failed check leaves `presendFailed`. -/
theorem presendChecksFailInOrder : Obligations.PresendChecksFailInOrder := by
  intro cmd args s hidle
  have hfail {info : Info} (hcheck : presendCheck cmd args s.chanOpen = .error info) :
      exec (.exec cmd args) s = .next (presendFailed info s) := exec_of_presendCheck_error rfl hidle hcheck
  refine ⟨fun hcmd => hfail (presendCheck_not_byte hcmd args _), ?_⟩
  rintro c rfl
  refine ⟨fun he => hfail (presendCheck_unassigned he args _), fun e he => ⟨fun hlen => ?_, fun hlen hbad => ?_,
    fun hlen hargs hclosed => ?_⟩⟩
  · exact hfail (presendCheck_arity he hlen _)
  · exact hfail (presendCheck_not_word he hlen hbad _)
  · exact hfail (by rw [presendCheck_of_words he hlen hargs, hclosed]; rfl)

/-! ### The 14 commands -/

/-- R108: each command is the `EXEC` of its id. -/
theorem commandForms_execOperands : ∀ p ∈ commandForms, ∀ args : List Int,
    (p.2 args).execOperands? = some ((p.1.toNat : Int), args) := by
  simp [commandForms, Instr.execOperands?]

/-- R105: SET_WORLD_FRAME_ID is well-formed with one word, every other command with no argument. -/
theorem commandForms_wf : ∀ p ∈ commandForms, ∀ args : List Int,
    (p.2 args).wf = if p.1 = 0x1F#8 then args.length == 1 && args.all wordOk else args.isEmpty := by
  simp [commandForms, Instr.wf]

/-- R100: only SET_WORLD_FRAME_ID takes an argument. -/
theorem cmdRows_argc : ∀ e ∈ cmdRows, e.argc = if e.id = 0x1F#8 then 1 else 0 := by
  decide

theorem commandForms_args_of_wf {p : Byte × (List Int → Instr)} (hp : p ∈ commandForms) {e : CmdEntry}
    (he : cmdEntry? p.1 = some e) {args : List Int} (hwf : (p.2 args).wf = true) :
    args.length = e.argc.val ∧ ∀ a ∈ args, 0 ≤ a ∧ a < 2 ^ 32 := by
  obtain ⟨hrow, hid⟩ := cmdEntry?_some he
  rw [commandForms_wf p hp] at hwf
  rw [cmdRows_argc e hrow, hid]
  split_ifs at hwf ⊢
  · simpa [wordOk] using hwf
  · obtain rfl := List.isEmpty_iff.mp hwf
    simp

/-- R90, R140: a frame with its checksum byte written as the sum it is. -/
theorem frame_eq_bytes (cmd : Byte) (p : List Byte) : frame cmd p = [0xBB#8, cmd, BitVec.ofNat 8 p.length] ++ p ++
    [BitVec.ofNat 8 ((0xBB + cmd.toNat + p.length + (p.map BitVec.toNat).sum) % 256)] := by
  rw [← checksum_frameBody_toNat, BitVec.ofNat_toNat, BitVec.setWidth_eq]
  rfl

/-- Settles O19: well-formed arguments pass every check on an open channel, and the latch is the stated state, its frame's bytes by
`frame_eq_bytes`. -/
theorem acceptedCommandIsLatchedAndItsFrameBuilt : Obligations.AcceptedCommandIsLatchedAndItsFrameBuilt := by
  intro p hp e he args hwf s hidle hopen i hi payload
  have hops : i.execOperands? = some ((p.1.toNat : Int), args) := by
    obtain rfl | rfl := List.mem_pair.mp hi
    · exact commandForms_execOperands p hp args
    · rfl
  obtain ⟨hlen, hargs⟩ := commandForms_args_of_wf hp he hwf
  have hcheck : presendCheck p.1.toNat args s.chanOpen = .ok (e, argWord args) := by
    rw [presendCheck_of_words he hlen hargs, hopen]
    rfl
  have hpayload : requestPayload e (argWord args) = payload := rfl
  rw [exec_of_presendCheck_ok hops hidle hcheck, ← hpayload, ← frame_eq_bytes, ← cmdEntry?_id he]
  rfl

end Sys2Proof.Machine
end

section
/-! PROOFS. The write step (R163). -/

namespace Sys2Proof.Machine

theorem ownStep_requestSent {s : State} (h : s.fsmState = .requestSent) : ownStep s = .next (writeStep s) := by
  simp only [ownStep, h]

/-- Settles O27: the two cases of the write step, by what its one `TxWrite` reports. -/
theorem writeStepSendsTheFrameOnce : Obligations.WriteStepSendsTheFrameOnce := by
  intro s hsent
  rw [ownStep_requestSent hsent]
  obtain ⟨hok, hstep⟩ | ⟨hfail, hstep⟩ := writeStep_cases s
  · exact ⟨fun _ => by rw [hstep], fun h => absurd h (by simp [hok])⟩
  · exact ⟨fun h => absurd h (by simp [hfail]), fun _ => by rw [hstep]; rfl⟩

end Sys2Proof.Machine
end

section
/-! PROOFS. Errors outside a transaction (R225): a codec operation, `OPEN` and `CLOSE` hand one result to the host and write no status. -/

namespace Sys2Proof.Machine

/-! ### The code of a codec operation's error -/

theorem codecEncode_errCode {cmd : Int} {payload : List Int} {info : Info} (h : codecEncode cmd payload = .error info) :
    errCodeOf info = .encodingError := by
  unfold codecEncode at h
  split at h
  · split_ifs at h
    cases h
    rfl
  · cases h
    rfl

theorem codecDecodeFloats_errCode {raw : List Int} {count : Int} {info : Info}
    (h : codecDecodeFloats raw count = .error info) : errCodeOf info = .framingError := by
  unfold codecDecodeFloats at h
  split at h
  · cases h
    rfl
  · split_ifs at h
    · cases h
      rfl
    · cases h
      rfl
    · split at h
      · cases h
      · cases h
        rfl

theorem splitFrame_errCode {f : List Byte} {info : Info} (h : splitFrame f = .error info) :
    errCodeOf info = .framingError ∨ errCodeOf info = .checksumMismatch := by
  unfold splitFrame at h
  split at h
  · dsimp only at h
    split_ifs at h
    · cases h
      exact .inl rfl
    · cases h
      exact .inl rfl
    · cases h
      exact .inl rfl
    · cases h
      exact .inr rfl
  · cases h
    exact .inl rfl

theorem codecDecodeFrame_errCode {f : List Int} {info : Info} (h : codecDecodeFrame f = .error info) :
    errCodeOf info = .framingError ∨ errCodeOf info = .checksumMismatch := by
  unfold codecDecodeFrame at h
  split at h
  · cases h
    exact .inl rfl
  · exact splitFrame_errCode h

/-- A result handed over directly is a `TransportError` only for a reason with that code. -/
theorem directResult_ne_transportError {α : Type} {onOk : α → HostResult} {x : Except Info α}
    (hok : ∀ a info, onOk a ≠ .err .transportError info) (hx : ∀ info, x = .error info → errCodeOf info ≠ .transportError)
    (info : Info) : directResult onOk x ≠ .err .transportError info := by
  cases x with
  | ok a => exact hok a info
  | error i =>
    intro h
    exact hx i rfl (HostResult.err.inj h).1

theorem exec_codec_ne_transportError {i : Instr} (h : opWaits i = false) :
    ∃ r, (∀ info, r ≠ .err .transportError info) ∧ ∀ s : State, exec i s = .next (giveHost r s) := by
  cases i <;> simp only [opWaits, reduceCtorEq] at h
  case encode cmd payload =>
    exact ⟨_, directResult_ne_transportError nofun fun _ hx => by simp [codecEncode_errCode hx], fun _ => rfl⟩
  case encodeNp cmd =>
    exact ⟨_, directResult_ne_transportError nofun fun _ hx => by simp [codecEncode_errCode hx], fun _ => rfl⟩
  case decodeFloats raw count =>
    exact ⟨_, directResult_ne_transportError nofun fun _ hx => by simp [codecDecodeFloats_errCode hx], fun _ => rfl⟩
  case decodeFrame f =>
    refine ⟨_, directResult_ne_transportError nofun fun _ hx => ?_, fun _ => rfl⟩
    obtain hc | hc := codecDecodeFrame_errCode hx <;> simp [hc]

/-! ### Direct completion -/

/-- From `s` to `t` an operation completes outside a transaction with the result `r` (R225): it writes no status, and its one
`TransportError` is `OPEN`'s, which closes the channel (R167). -/
structure CompletesDirectly (r : HostResult) (s t : State) : Prop where
  hostOut : t.hostOut = s.hostOut ++ [r]
  err : t.err = s.err
  fsmState : t.fsmState = s.fsmState
  errInfo : t.errInfo = s.errInfo
  transport : ∀ info, r = .err .transportError info → info = .openFailed ∧ t.chanOpen = false

theorem giveHost_completesDirectly {r : HostResult} (h : ∀ info, r ≠ .err .transportError info) (s : State) :
    CompletesDirectly r s (giveHost r s) :=
  ⟨rfl, rfl, rfl, rfl, fun info hr => absurd hr (h info)⟩

theorem closeEffect_completesDirectly (s : State) : CompletesDirectly .done s (closeEffect s) :=
  ⟨rfl, rfl, rfl, rfl, nofun⟩

/-- The three outcomes of `OPEN` (R167): a malformed operand, an open channel, a failure to open it. -/
theorem openEffect_completesDirectly (respFramed : Int) (timeout : Nat) (s : State) :
    ∃ r, CompletesDirectly r s (openEffect respFramed timeout s) := by
  unfold openEffect
  split_ifs
  · exact ⟨_, giveHost_completesDirectly (by simp [errCodeOf]) s⟩
  · dsimp only
    cases (takeOpen s).1 with
    | true => exact ⟨.done, by simp, by simp, by simp, by simp, nofun⟩
    | false => exact ⟨.err .transportError .openFailed, by simp [errCodeOf], by simp, by simp, by simp, by simp⟩

theorem exec_codec_completesDirectly {i : Instr} (h : opWaits i = false) (s : State) :
    ∃ t r, exec i s = .next t ∧ CompletesDirectly r s t := by
  obtain ⟨r, hr, hexec⟩ := exec_codec_ne_transportError h
  exact ⟨_, r, hexec s, giveHost_completesDirectly hr s⟩

/-- An operation that is no `EXEC` completes directly, but for `OPEN` and `CLOSE` outside `IDLE`, which are held. -/
theorem exec_completesDirectly_or_held {i : Instr} (hi : i.execOperands? = none) (s : State) :
    (∃ t r, exec i s = .next t ∧ CompletesDirectly r s t) ∨
    (s.fsmState ≠ .idle ∧ ((∃ f n, i = .openChan f n) ∨ i = .closeChan) ∧ exec i s = .next (hold i s)) := by
  obtain hcodec | ⟨cmd, args, hops⟩ | ⟨f, n, rfl⟩ | rfl := instr_kinds i
  · exact .inl (exec_codec_completesDirectly hcodec s)
  · rw [hi] at hops
    cases hops
  · by_cases hs : s.fsmState = .idle
    · obtain ⟨r, hr⟩ := openEffect_completesDirectly f n s
      exact .inl ⟨_, r, present_idle hs, hr⟩
    · exact .inr ⟨hs, .inl ⟨f, n, rfl⟩, present_busy hs⟩
  · by_cases hs : s.fsmState = .idle
    · exact .inl ⟨_, .done, present_idle hs, closeEffect_completesDirectly s⟩
    · exact .inr ⟨hs, .inr rfl, present_busy hs⟩

theorem exec_next_completesDirectly_or_held {i : Instr} {s t : State} (hi : i.execOperands? = none)
    (h : exec i s = .next t) : (∃ r, CompletesDirectly r s t) ∨ t = hold i s := by
  obtain ⟨u, r, hu, hr⟩ | ⟨-, -, hu⟩ := exec_completesDirectly_or_held hi s
  · rw [hu] at h
    cases h
    exact .inl ⟨r, hr⟩
  · rw [hu] at h
    cases h
    exact .inr rfl

theorem exec_closeChan_hostOut {s t : State} (h : exec .closeChan s = .next t) :
    t.hostOut = s.hostOut ++ [.done] ∨ t.hostOut = s.hostOut := by
  by_cases hs : s.fsmState = .idle
  · cases (present_idle hs).symm.trans h
    exact .inl rfl
  · cases (present_busy hs).symm.trans h
    exact .inr rfl

/-- Settles O53: a direct completion has each stated property by definition, and a held operation writes nothing and hands nothing over. -/
theorem errorsOutsideATransactionWriteNoStatus : Obligations.ErrorsOutsideATransactionWriteNoStatus := by
  refine ⟨fun i s hi hidle => ?_, fun i s t hi h => ?_, fun i s t info hi h hout => ?_, fun s t code info h hout => ?_⟩
  · obtain ⟨t, r, ht, hr⟩ | ⟨hbusy, hkind, -⟩ := exec_completesDirectly_or_held hi s
    · exact ⟨t, r, ht, hr.hostOut⟩
    · obtain ⟨hopen, hclose⟩ := hidle.resolve_left hbusy
      obtain ⟨f, n, rfl⟩ | rfl := hkind
      · exact absurd rfl (hopen f n)
      · exact absurd rfl hclose
  · obtain ⟨r, hr⟩ | rfl := exec_next_completesDirectly_or_held hi h
    · exact ⟨hr.err, hr.fsmState, hr.errInfo⟩
    · exact ⟨rfl, rfl, rfl⟩
  · obtain ⟨r, hr⟩ | rfl := exec_next_completesDirectly_or_held hi h
    · have hres : [r] = [.err .transportError info] := List.append_cancel_left (hr.hostOut.symm.trans hout)
      exact hr.transport info (List.singleton_inj.mp hres)
    · simp at hout
  · obtain hdone | hsame := exec_closeChan_hostOut h
    · simp [hdone] at hout
    · simp [hsame] at hout

end Sys2Proof.Machine
end

section
/-! PROOFS. The values after reset (R261). -/

namespace Sys2Proof.Machine

/-- R29, R261: no `RESULT` register holds a value after reset. -/
theorem State.reset_result : State.reset.result = Vector.replicate 8 none := rfl

@[simp] theorem State.reset_result_getElem (i : Fin 8) : State.reset.result[i] = none := by
  rw [State.reset_result]
  exact Vector.getElem_replicate i.isLt

/-- Settles O42: each single element is the value `State.reset` gives it, and the eight `RESULT` registers are one replicated `none`. -/
theorem resetLeavesTheStatedValues : Obligations.ResetLeavesTheStatedValues :=
  ⟨rfl, rfl, rfl, rfl, rfl, rfl, rfl, rfl, rfl, rfl, State.reset_result_getElem, rfl, rfl, rfl, rfl, rfl, rfl⟩

end Sys2Proof.Machine
end

section
/-! PROOFS. The reader of request frames inverts `EXEC`'s encoder (R99, R101; log 24). -/

namespace Sys2Proof.Machine

/-! ### The commands and their table entries -/

theorem commandForms_assigned : ∀ p ∈ commandForms, ∃ e, cmdEntry? p.1 = some e := by
  simp only [← Option.isSome_iff_exists]
  decide

/-- R108: each command is the operation that `EXEC` of its id names. -/
theorem ofExec_commandForms : ∀ p ∈ commandForms, ∀ args : List Int, Instr.ofExec p.1.toNat args = p.2 args := by
  simp [commandForms, Instr.ofExec]

/-- R93, R94, R100: only an indexed write takes an argument. -/
theorem cmdRows_np_argc : ∀ e ∈ cmdRows, e.shape = .np → e.argc = 0 := by
  decide

/-! ### The frame an `EXEC` sends -/

theorem encodeFrame?_of_words {i : Instr} {c : Byte} {e : CmdEntry} {args : List Int}
    (hops : i.execOperands? = some ((c.toNat : Int), args)) (he : cmdEntry? c = some e)
    (hlen : args.length = e.argc.val) (hargs : ∀ a ∈ args, 0 ≤ a ∧ a < 2 ^ 32) :
    encodeFrame? i = some (frame c (requestPayload e (argWord args))) := by
  obtain rfl | ⟨a, rfl⟩ := args_of_length_eq_argc hlen
  · have hargc : e.argc = 0 := Fin.ext hlen.symm
    simp [encodeFrame?, hops, he, hargc, argWord]
  · have hargc : e.argc = 1 := Fin.ext hlen.symm
    obtain ⟨h0, h1⟩ := List.forall_mem_singleton.mp hargs
    simp [encodeFrame?, hops, he, hargc, argWord, toWord?_of_range h0 h1]

/-! ### Reading it back -/

/-- A frame passes the reader's checks of marker, length and checksum, so its id selects the command (R99). -/
theorem decodeFrameBytes_frame {c : Byte} {e : CmdEntry} {p : List Byte} (he : cmdEntry? c = some e) (hp : p.length ≤ 255) :
    decodeFrameBytes (frame c p) = (argsOfPayload e p).map (Instr.ofExec c.toNat) := by
  have hlen : (BitVec.ofNat 8 p.length).toNat = p.length := Nat.mod_eq_of_lt (by omega)
  have hbody : Config.startByte :: c :: BitVec.ofNat 8 p.length :: p = frameBody c p := rfl
  simp only [decodeFrameBytes, frame_eq, hlen]
  simp [he, hbody]

theorem argsOfPayload_requestPayload {e : CmdEntry} {args : List Int} (hrow : e ∈ cmdRows)
    (hlen : args.length = e.argc.val) (hargs : ∀ a ∈ args, 0 ≤ a ∧ a < 2 ^ 32) :
    argsOfPayload e (requestPayload e (argWord args)) = .ok args := by
  obtain ⟨b0, b1, b2, b3, hb⟩ : ∃ b0 b1 b2 b3, le32 ((argWord args).getD Config.dummyValue) = [b0, b1, b2, b3] :=
    ⟨_, _, _, _, rfl⟩
  have hw := (le32_eq_iff _ b0 b1 b2 b3).mp hb
  cases hshape : e.shape with
  | np =>
    have hargc := cmdRows_np_argc e hrow hshape
    obtain rfl : args = [] := List.length_eq_zero_iff.mp (by rw [hlen, hargc]; rfl)
    simp [argsOfPayload, requestPayload, hshape]
  | iw =>
    simp only [argsOfPayload, requestPayload, hshape, iwPayload, hb, hw, bne_self_eq_false, Bool.false_eq_true, if_false]
    obtain rfl | ⟨a, rfl⟩ := args_of_length_eq_argc hlen
    · have hargc : e.argc = 0 := Fin.ext hlen.symm
      simp [hargc, argWord]
    · have hargc : e.argc = 1 := Fin.ext hlen.symm
      obtain ⟨h0, h1⟩ := List.forall_mem_singleton.mp hargs
      have ha : a = (BitVec.ofInt 32 a).toNat := toWord?_eq_some.mp (toWord?_of_range h0 h1)
      simp only [if_pos hargc, argWord, List.head?_cons, Option.map_some, Option.getD_some, ← ha]

/-- Settles O18: a command's frame is the frame of its table entry, whose id and payload the reader turns back into the command and its
argument. -/
theorem requestFramesDecodeToTheirCommand : Obligations.RequestFramesDecodeToTheirCommand := by
  intro p hp args hwf
  obtain ⟨e, he⟩ := commandForms_assigned p hp
  obtain ⟨hlen, hargs⟩ := commandForms_args_of_wf hp he hwf
  refine ⟨_, encodeFrame?_of_words (commandForms_execOperands p hp args) he hlen hargs, ?_⟩
  rw [decodeFrameBytes_frame he (requestPayload_le e _), argsOfPayload_requestPayload (cmdEntry?_some he).1 hlen hargs,
    Except.map, ofExec_commandForms p hp]

end Sys2Proof.Machine
end

section
/-! PROOFS. One step with the input it takes, and the block's own steps from each state of the state machine. -/

namespace Sys2Proof.Machine

/-! ### What the block's own step is -/

theorem ownStep_idle {s : State} (h : s.fsmState = .idle) : ownStep s = .next s := by
  simp only [ownStep, h]

theorem ownStep_awaitingResponse {s : State} (h : s.fsmState = .awaitingResponse) : ownStep s = readStep s := by
  simp only [ownStep, h]

theorem ownStep_decoded {s : State} (h : s.fsmState = .decoded) : ownStep s = deliverDecoded s := by
  simp only [ownStep, h]

theorem ownStep_failed {s : State} (h : s.fsmState = .failed) : ownStep s = deliverFailed s := by
  simp only [ownStep, h]

/-! ### What a step does, with the input it takes -/

/-- What moves from `s` to `t`, `u` being `s` with its input or its held operation taken: as `step_next`, with the arrival and the
reset tied to the input that brings them. -/
inductive StepCase (s u t : State) : Prop where
  | run (i : Instr) (h : exec i u = .next t)
  | own (h : ownStep u = .next t)
  | hold (i : Instr) (h : t = hold i u)
  | arrive (bs : List Byte) (rest : List Input) (hin : s.inputs = .arrive bs :: rest) (h : t = envArrive bs u)
  | chanClosed (h : t = envClose u)
  | reset (kept : Nat) (rest : List Input) (hin : s.inputs = .reset kept :: rest) (h : t = applyReset kept u)

/-- The block's own move is a run or an own step. -/
theorem stepCase_of_ownMove {s u t : State} (hev : nextEvent s = ownMove u) (h : step s = .next t) :
    ∃ hs, StepCase s { u with held := hs } t := by
  unfold step at h
  obtain ⟨i, is, -, -, he⟩ | ⟨-, he⟩ := ownMove_cases u <;> rw [hev, he] at h
  · exact ⟨is, .run i h⟩
  · exact ⟨u.held, .own h⟩

theorem stepCase_of_op {s u t : State} {r : HostRequest} (hev : nextEvent s = eventOf (.op r) u) (h : step s = .next t) :
    StepCase s u t := by
  unfold step at h
  cases hd : decodeRequest r with
  | error e => simp [hev, eventOf, hd] at h
  | ok i =>
    obtain ⟨hp, -⟩ | ⟨hp, -⟩ := presented_cases i u <;> simp only [hev, eventOf, hd, hp] at h
    · exact .run i h
    · cases h
      exact .hold i rfl

theorem step_stepCase {s t : State} (h : step s = .next t) : ∃ hs xs, StepCase s { s with held := hs, inputs := xs } t := by
  obtain ⟨x, xs, hin, hev⟩ | ⟨-, hev⟩ := nextEvent_cases s
  · cases x with
    | op r => exact ⟨s.held, xs, stepCase_of_op hev h⟩
    | block =>
      obtain ⟨hs, hc⟩ := stepCase_of_ownMove (u := { s with inputs := xs }) hev h
      exact ⟨hs, xs, hc⟩
    | arrive bs =>
      simp only [step, hev, eventOf, Host.Outcome.next.injEq] at h
      exact ⟨s.held, xs, .arrive bs xs hin h.symm⟩
    | chanClosed =>
      simp only [step, hev, eventOf, Host.Outcome.next.injEq] at h
      exact ⟨s.held, xs, .chanClosed h.symm⟩
    | reset kept =>
      simp only [step, hev, eventOf, Host.Outcome.next.injEq] at h
      exact ⟨s.held, xs, .reset kept xs hin h.symm⟩
  · obtain ⟨hs, hc⟩ := stepCase_of_ownMove hev h
    exact ⟨hs, s.inputs, hc⟩

end Sys2Proof.Machine
end

section
/-! PROOFS. The invariant of the block's registers (R23 to R32): it holds after reset, every step keeps it. -/

namespace Sys2Proof.Machine

/-! ### The registers the invariant speaks of -/

/-- `t` has the transaction registers of `s`, and outside `IDLE`, where `EXP_BYTES` depends on it, the response mode too. -/
structure SameTransaction (s t : State) : Prop where
  fsmState : t.fsmState = s.fsmState
  curCmd : t.curCmd = s.curCmd
  curArgc : t.curArgc = s.curArgc
  curArg : t.curArg = s.curArg
  expN : t.expN = s.expN
  expBytes : t.expBytes = s.expBytes
  txFrame : t.txFrame = s.txFrame
  rxBuf : t.rxBuf = s.rxBuf
  rxLen : t.rxLen = s.rxLen
  result : t.result = s.result
  resCnt : t.resCnt = s.resCnt
  err : t.err = s.err
  errInfo : t.errInfo = s.errInfo
  cfgRespFramed : s.fsmState ≠ .idle → t.cfgRespFramed = s.cfgRespFramed

theorem SameTransaction.phaseOk {s t : State} (h : SameTransaction s t) (hs : PhaseOk s) : PhaseOk t := by
  cases hf : s.fsmState with
  | idle => simpa [PhaseOk, hf, h.fsmState, h.txFrame, h.rxBuf, h.errInfo] using hs
  | _ =>
    have hc := h.cfgRespFramed (by simp [hf])
    simpa [PhaseOk, Latched, hf, h.fsmState, h.curCmd, h.curArgc, h.curArg, h.expN, h.expBytes, h.txFrame, h.rxBuf, h.resCnt,
      h.err, h.errInfo, hc] using hs

/-- The invariant speaks of nothing else. -/
theorem State.Inv.of_sameTransaction {s t : State} (hs : s.Inv) (h : SameTransaction s t) : t.Inv where
  curCmdAssigned := by simpa [h.curCmd] using hs.curCmdAssigned
  curArgPresent := by simpa [h.curArg, h.curArgc] using hs.curArgPresent
  expBytesLegal := by simpa [h.expBytes, h.expN] using hs.expBytesLegal
  txFrameLen := by simpa [h.txFrame] using hs.txFrameLen
  rxLenEq := by simpa [h.rxLen, h.rxBuf] using hs.rxLenEq
  rxLenLe := by simpa [h.rxBuf, h.expBytes] using hs.rxLenLe
  resultValid := by simpa [h.result, h.resCnt] using hs.resultValid
  phaseOk := h.phaseOk hs.phaseOk

theorem State.Inv.schedule {s : State} (hs : s.Inv) (is : List Instr) (xs : List Input) :
    ({ s with held := is, inputs := xs } : State).Inv :=
  hs.of_sameTransaction (by constructor <;> simp)

theorem giveHost_sameTransaction (r : HostResult) (s : State) : SameTransaction s (giveHost r s) := by
  constructor <;> simp

theorem hold_sameTransaction (i : Instr) (s : State) : SameTransaction s (hold i s) := by
  constructor <;> simp

theorem envArrive_sameTransaction (bs : List Byte) (s : State) : SameTransaction s (envArrive bs s) := by
  constructor <;> simp

theorem envClose_sameTransaction (s : State) : SameTransaction s (envClose s) := by
  constructor <;> simp

theorem closeEffect_sameTransaction (s : State) : SameTransaction s (closeEffect s) := by
  constructor <;> simp [closeEffect]

/-- `OPEN` in `IDLE` writes the channel and the configuration alone (R167). -/
theorem openEffect_sameTransaction {s : State} (hidle : s.fsmState = .idle) (f : Int) (n : Nat) :
    SameTransaction s (openEffect f n s) := by
  unfold openEffect
  split_ifs
  · exact giveHost_sameTransaction _ s
  · dsimp only
    cases (takeOpen s).1 <;> constructor <;> simp [hidle]

theorem applyReset_sameTransaction (kept : Nat) (s : State) : SameTransaction State.reset (applyReset kept s) := by
  constructor <;> simp

/-! ### At reset -/

/-- Settles O44: after reset every register is empty or zero, as `IDLE` asks. -/
theorem invariantHoldsAtReset : Obligations.InvariantHoldsAtReset where
  curCmdAssigned := nofun
  curArgPresent := by decide
  expBytesLegal := .inl rfl
  txFrameLen := by decide
  rxLenEq := rfl
  rxLenLe := by decide
  resultValid i := by simp only [State.reset_result_getElem]; simp [State.reset]
  phaseOk := ⟨rfl, rfl, rfl⟩

/-! ### Acceptance -/

theorem requestPayload_le_five (e : CmdEntry) (arg : Option Word) : (requestPayload e arg).length ≤ 5 := by
  rw [requestPayload_length]
  cases e.shape <;> decide

/-- Acceptance clears the registers of the last transaction, and a raise writes none of them (R160 b, R224). -/
theorem raise_clearTransaction_inv {s : State} (hs : s.Inv) (info : Info) : (raise info (clearTransaction s)).Inv where
  curCmdAssigned := hs.curCmdAssigned
  curArgPresent := hs.curArgPresent
  expBytesLegal := hs.expBytesLegal
  txFrameLen := by simp
  rxLenEq := by simp
  rxLenLe := by simp
  resultValid i := by simp
  phaseOk := by simp [PhaseOk]

theorem latch_clearTransaction_inv {e : CmdEntry} {arg : Option Word} (he : cmdEntry? e.id = some e)
    (harg : arg.isSome ↔ e.argc = 1) (s : State) : (latch e arg (clearTransaction s)).Inv where
  curCmdAssigned := by simp [he]
  curArgPresent := harg
  expBytesLegal := by cases h : s.cfgRespFramed <;> simp [h]
  txFrameLen := by have := requestPayload_le_five e arg; simp; omega
  rxLenEq := by simp
  rxLenLe := by simp
  resultValid i := by simp
  phaseOk := by simp [PhaseOk, Latched, he]

theorem accept_inv {s : State} (hs : s.Inv) (cmd : Int) (args : List Int) : (accept cmd args s).Inv := by
  obtain ⟨e, arg, hcheck, ha⟩ | ⟨info, -, ha⟩ := accept_cases cmd args s <;> rw [ha]
  · obtain ⟨he, -, -, -, harg, -⟩ := presendCheck_ok hcheck
    exact latch_clearTransaction_inv he harg s
  · exact raise_clearTransaction_inv hs info

theorem exec_inv {i : Instr} {s t : State} (hs : s.Inv) (h : exec i s = .next t) : t.Inv := by
  obtain ⟨r, hx⟩ | ⟨j, -, hx⟩ | ⟨cmd, args, -, -, hx⟩ | ⟨f, n, hidle, hx⟩ | ⟨-, hx⟩ := exec_cases i s <;> rw [hx] at h <;> cases h
  · exact hs.of_sameTransaction (giveHost_sameTransaction r s)
  · exact hs.of_sameTransaction (hold_sameTransaction j s)
  · exact accept_inv hs cmd args
  · exact hs.of_sameTransaction (openEffect_sameTransaction hidle f n)
  · exact hs.of_sameTransaction (closeEffect_sameTransaction s)

/-! ### The block's own steps -/

theorem mergeResult_getElem (ws : List Word) (old : Vector (Option Word) 8) (i : Fin 8) :
    (mergeResult ws old)[i] = (ws[i.val]?).or old[i] := by
  simp [mergeResult]

theorem txWrite_sameTransaction (bs : List Byte) (s : State) : SameTransaction s (txWrite bs s).2 := by
  constructor <;> simp

theorem rxRead_sameTransaction (n : Nat) (s : State) : SameTransaction s (rxRead n s).2 := by
  constructor <;> simp

end Sys2Proof.Machine
end

section
/-! PROOFS. The read step in full (R164, R165): a closed channel, a short read, the strict-mode checks, the decode. -/

namespace Sys2Proof.Machine

/-! ### What the read step writes -/

/-- The bytes a read returned, recorded in `RX_BUF` and `RX_LEN` (R164). -/
def recorded (r : List Byte) (s : State) : State := { s with rxBuf := r, rxLen := Fin.ofNat 37 r.length }

/-- The state after the decode step on the words `ws` (R165). -/
def decodedWith (ws : List Word) (s : State) : State :=
  { s with result := mergeResult ws s.result, resCnt := Fin.ofNat 9 s.expN.toNat, fsmState := .decoded }

theorem decodeStep_of_length {p : List Byte} {s : State} (h : p.length = 4 * s.expN.toNat) :
    ∃ ws, wordsOf? p = some ws ∧ ws.length = s.expN.toNat ∧ decodeStep p s = .next (decodedWith ws s) := by
  obtain ⟨ws, hws, hlen⟩ := wordsOf?_of_length h
  exact ⟨ws, hws, hlen, by simp only [decodeStep, hws, if_pos hlen, decodedWith]⟩

theorem readStep_of_closed {s : State} (hb : s.expBytes.val = responseBytes s.expN s.cfgRespFramed)
    (h : (rxRead s.expBytes.val s).1 = none) : readStep s = .next (raise .closed (rxRead s.expBytes.val s).2) := by
  unfold readStep
  rw [if_neg (not_not.mpr hb)]
  split
  · rename_i u hr; rw [hr]
  · rename_i r u hr; simp [hr] at h

theorem readStep_of_bytes {s : State} {r : List Byte} (hb : s.expBytes.val = responseBytes s.expN s.cfgRespFramed)
    (h : (rxRead s.expBytes.val s).1 = some r) : readStep s = checkResponse r (rxRead s.expBytes.val s).2 := by
  unfold readStep
  rw [if_neg (not_not.mpr hb)]
  split
  · rename_i u hr; simp [hr] at h
  · rename_i q u hr
    rw [hr] at h ⊢
    cases h
    rfl

theorem checkResponse_short {r : List Byte} {s : State} (h : r.length < s.expBytes.val) :
    checkResponse r s = .next (raise (.shortRead s.expBytes.val r.length) (recorded r s)) := by
  simp only [checkResponse, if_pos h, recorded]

theorem checkResponse_raw {r : List Byte} {s : State} (h : s.expBytes.val ≤ r.length) (hf : s.cfgRespFramed = false) :
    checkResponse r s = decodeStep r (recorded r s) := by
  simp [checkResponse, Nat.not_lt.mpr h, hf, recorded]

/-- A complete framed response: the first failing check raises, or else the payload is decoded. -/
theorem checkResponse_framed {s : State} {c start echo len chk : Byte} {p : List Byte} (hf : s.cfgRespFramed = true)
    (hc : s.curCmd = some c) (hb : s.expBytes.val ≤ p.length + 4) (hp : p.length = 4 * s.expN.toNat) :
    checkResponse ([start, echo, len] ++ p ++ [chk]) s =
      (strictCheck c s.expN start echo len chk (checksum ([start, echo, len] ++ p))).elim
        (decodeStep p (recorded ([start, echo, len] ++ p ++ [chk]) s))
        fun info => .next (raise info (recorded ([start, echo, len] ++ p ++ [chk]) s)) := by
  have hlen : ¬([start, echo, len] ++ p ++ [chk]).length < s.expBytes.val := by simp; omega
  obtain ⟨b, rest, hcons⟩ := List.exists_cons_of_ne_nil (List.append_ne_nil_of_right_ne_nil p (List.cons_ne_nil chk []))
  have hbytes : [start, echo, len] ++ p ++ [chk] = start :: echo :: len :: b :: rest := by simp [← hcons]
  have hlast : (b :: rest).getLast (by simp) = chk := by simp [← hcons]
  have hinit : (start :: echo :: len :: b :: rest).dropLast = [start, echo, len] ++ p := by rw [← hbytes, List.dropLast_concat]
  have hpay : (b :: rest).take (4 * s.expN.toNat) = p := by rw [← hcons, ← hp]; simp
  rw [hbytes] at hlen ⊢
  simp only [checkResponse, if_neg hlen, if_pos hf, hc, hlast, hinit, List.drop_succ_cons, List.drop_zero, hpay, recorded]
  cases strictCheck c s.expN start echo len chk (checksum ([start, echo, len] ++ p)) <;> rfl

theorem exists_framed_parts {r : List Byte} {n : Nat} (h : r.length = n + 4) :
    ∃ start echo len p chk, r = [start, echo, len] ++ p ++ [chk] ∧ p.length = n := by
  match r, h with
  | start :: echo :: len :: b :: rest, h =>
    refine ⟨start, echo, len, (b :: rest).dropLast, (b :: rest).getLast (by simp), ?_, ?_⟩
    · rw [List.append_assoc, List.dropLast_append_getLast]
      rfl
    · simp only [List.length_cons] at h
      simp
      omega

/-- Settles O28: the two outcomes of the read step before any check of the response. -/
theorem readStepRaisesClosedOrShortRead : Obligations.ReadStepRaisesClosedOrShortRead := by
  intro s hwait hb
  rw [ownStep_awaitingResponse hwait]
  refine ⟨fun h => ?_, fun r h hlen => ?_⟩
  · rw [readStep_of_closed hb h]
    rfl
  · have hu : (rxRead s.expBytes.val s).2.expBytes = s.expBytes := rxRead_expBytes _ s
    rw [readStep_of_bytes hb h, checkResponse_short (by rwa [hu]), hu]
    rfl

theorem recorded_of_length {r : List Byte} {b : Fin 37} (h : r.length = b.val) (s : State) :
    recorded r s = { s with rxBuf := r, rxLen := b } := by
  rw [recorded, h, Fin.ofNat_val_eq_self]

/-! ### Raw mode -/

/-- Settles O29: with no check to fail, the bytes are decoded word by word. -/
theorem rawResponseIsDecodedUnchecked : Obligations.RawResponseIsDecodedUnchecked := by
  intro s r hwait hbytes hraw hread hlen
  set u := (rxRead s.expBytes.val s).2 with hu
  have hn : (recorded r u).expN = s.expN := rxRead_expN _ s
  obtain ⟨ws, hws, hwlen, hdec⟩ := decodeStep_of_length (p := r) (s := recorded r u) (by rw [hn, hlen, hbytes])
  have hstep : ownStep s = .next (decodedWith ws (recorded r u)) := by
    rw [ownStep_awaitingResponse hwait, readStep_of_bytes (by rw [hbytes, hraw]; rfl) hread,
      checkResponse_raw (by rw [rxRead_expBytes, hlen]) (by rw [rxRead_cfgRespFramed, hraw]), hdec]
  have hres (i : Fin 8) : (decodedWith ws (recorded r u)).result[i] = (ws[i.val]?).or s.result[i] := by
    rw [← rxRead_result s.expBytes.val s]
    exact mergeResult_getElem ws u.result i
  rw [hn] at hwlen
  refine ⟨_, hstep, ?_, fun i => ⟨fun hi => ?_, fun hi => ?_⟩⟩
  · rw [recorded_of_length hlen, ← hn, recorded_of_length hlen]
    rfl
  · rw [hres, List.getElem?_eq_none (by omega), Option.none_or]
  · obtain ⟨b0, b1, b2, b3, h0, h1, h2, h3, hw⟩ := wordsOf?_getElem? (i := i.val) hws (by omega)
    exact ⟨b0, b1, b2, b3, h0, h1, h2, h3, by rw [hres, hw, Option.some_or]⟩

/-! ### Strict mode -/

theorem checksum_header_eq_sum (start echo len : Byte) (p : List Byte) : checksum ([start, echo, len] ++ p) =
    BitVec.ofNat 8 ((start.toNat + echo.toNat + len.toNat + (p.map BitVec.toNat).sum) % 256) := by
  rw [checksum_eq_ofNat_sum]
  simp [Nat.add_assoc]

/-- Settles O30: the checks of `strictCheck` in their order, and the decode of the payload. -/
theorem framedResponseIsCheckedInOrder : Obligations.FramedResponseIsCheckedInOrder := by
  intro s c start echo len payload chk hwait hframed hcmd hbytes hlen hread raised sum
  set u := (rxRead s.expBytes.val s).2 with hu
  set r := [start, echo, len] ++ payload ++ [chk] with hr
  have hn : u.expN = s.expN := rxRead_expN _ s
  have hrlen : r.length = s.expBytes.val := by simp [hr, hlen, hbytes]
  have hsum : checksum ([start, echo, len] ++ payload) = sum := checksum_header_eq_sum start echo len payload
  have hraised (info : Info) : raise info (recorded r u) = raised info := by
    rw [recorded_of_length hrlen]
    rfl
  have hstep : ownStep s = (strictCheck c s.expN start echo len chk sum).elim (decodeStep payload (recorded r u))
      fun info => .next (raised info) := by
    rw [ownStep_awaitingResponse hwait, readStep_of_bytes (by rw [hbytes, hframed]; rfl) hread, ← hn, ← hsum,
      checkResponse_framed (by rw [rxRead_cfgRespFramed, hframed]) (by rw [rxRead_curCmd, hcmd])
        (by rw [rxRead_expBytes]; omega) (by rw [hn, hlen])]
    simp only [← hu, ← hr, hraised]
  rw [hstep]
  refine ⟨fun h => ?_, fun h1 h => ?_, fun h1 h2 h => ?_, fun h1 h2 h3 h => ?_, fun h1 h2 h3 h => ?_⟩
  · simp [strictCheck, Config.startByte, h]
  · simp [strictCheck, Config.startByte, h1, h]
  · simp [strictCheck, Config.startByte, h1, h2, h]
  · simp [strictCheck, Config.startByte, h1, h2, h3, h]
  · have hpass : strictCheck c s.expN start echo len chk sum = none := by
      simp [strictCheck, Config.startByte, h1, h2, h3, h]
    obtain ⟨ws, hws, hwlen, hdec⟩ := decodeStep_of_length (p := payload) (s := recorded r u) (by rw [hlen, ← hn]; rfl)
    have hwlen : ws.length = s.expN.toNat := by rw [hwlen, ← hn]; rfl
    refine ⟨ws, hws, hwlen, decodedWith ws (recorded r u), by rw [hpass]; exact hdec, ?_, fun i => ?_⟩
    · rw [recorded_of_length hrlen, ← hn]
      rfl
    · rw [← rxRead_result s.expBytes.val s]
      exact mergeResult_getElem ws u.result i

end Sys2Proof.Machine
end

section
/-! PROOFS. Delivery (R166): the words of the result file, and the outcome of each class. -/

namespace Sys2Proof.Machine

/-! ### The result file as a list of words -/

/-- Registers that hold the words of a list are read back as that list (R30). -/
theorem resultWords_eq {n : Nat} {file : Vector (Option Word) 8} {ws : List Word} (hn : n ≤ 8) (hlen : ws.length = n)
    (h : ∀ i : Fin 8, i.val < n → file[i] = ws[i.val]?) : resultWords n file = some ws := by
  have htake : file.toList.take n = ws.map some := by
    apply List.ext_getElem
    · simp [hlen, hn]
    · intro i hi hi'
      have hi : i < n := by simpa [hlen] using hi'
      simpa [List.getElem?_eq_getElem (hlen.symm ▸ hi)] using h ⟨i, by omega⟩ hi
  rw [resultWords, htake, List.mapM_map]
  exact List.mapM_pure.trans (congrArg some (List.map_id ws))

/-- The first registers, each holding a word, hold the words of some list. -/
theorem exists_words {n : Nat} {file : Vector (Option Word) 8} (hn : n ≤ 8)
    (h : ∀ i : Fin 8, i.val < n → file[i].isSome) :
    ∃ ws : List Word, ws.length = n ∧ ∀ i : Fin 8, i.val < n → file[i] = ws[i.val]? := by
  refine ⟨List.ofFn fun j : Fin n => (file[j.val]'(by omega)).getD 0, List.length_ofFn, fun i hi => ?_⟩
  obtain ⟨w, hw⟩ := Option.isSome_iff_exists.mp (h i hi)
  simp_all

/-! ### Delivery of a decoded transaction -/

/-- R203: a decoded response has the words its class reads. -/
theorem cmdRows_post_words : ∀ e ∈ cmdRows, (e.post = .real7 → e.n = .eight) ∧ (e.post = .int → e.n = .one) := by
  decide

/-- The outcome of a decoded transaction is that of its class on the words in the result file (R166, R203). -/
theorem deliverDecoded_of_words {s : State} {c : Byte} {e : CmdEntry} {ws : List Word} (hc : s.curCmd = some c)
    (he : cmdEntry? c = some e) (hws : resultWords s.resCnt.val s.result = some ws) (hlen : ws.length = e.n.toNat) :
    deliverDecoded s = .next (finish (giveHost (outcomeOf e.post s.freeCtr ws).1 { s with
      err := if (outcomeOf e.post s.freeCtr ws).2 = .none then s.err else .nonFiniteIntegerError
      freeCtr := s.freeCtr + ws.length })) := by
  obtain ⟨hreal7, hint⟩ := cmdRows_post_words e (cmdEntry?_some he).1
  cases hpost : e.post with
  | real => simp [deliverDecoded, hc, hws, he, hpost, post, outcomeOf]
  | real7 =>
    have h7 : 7 ≤ ws.length := by rw [hlen, hreal7 hpost]; decide
    simp [deliverDecoded, hc, hws, he, hpost, post, outcomeOf, h7]
  | int =>
    obtain ⟨w, rfl⟩ : ∃ w, ws = [w] := List.length_eq_one_iff.mp (by rw [hlen, hint hpost]; rfl)
    cases ht : trunc (round6 s.freeCtr w) <;> simp [deliverDecoded, hc, hws, he, hpost, post, outcomeOf, ht]

/-- Settles O32: the result file holds exactly the words, so the outcome of their class is delivered. -/
theorem decodedTransactionIsDelivered : Obligations.DecodedTransactionIsDelivered := by
  intro s c e ws hdec hc he hlen hcnt hres
  rw [ownStep_decoded hdec, deliverDecoded_of_words hc he (resultWords_eq (by omega) hlen hres) (by omega)]
  rfl

/-! ### Delivery of a failed transaction -/

theorem deliverFailed_of_info {s : State} {info : Info} (h : s.errInfo = some info) :
    deliverFailed s = .next (finish (giveHost (.err s.err info) s)) := by
  simp only [deliverFailed, h]

/-- Settles O31: the recorded information is handed over. -/
theorem failedTransactionIsDelivered : Obligations.FailedTransactionIsDelivered := by
  intro s info hfail hinfo
  rw [ownStep_failed hfail, deliverFailed_of_info hinfo]
  rfl

/-- Either delivery hands one result over, may write `ERR`, and finishes (R166). -/
theorem ownStep_delivers {s t : State} (hs : s.fsmState = .decoded ∨ s.fsmState = .failed) (h : ownStep s = .next t) :
    ∃ r code ctr, t = finish (giveHost r { s with err := code, freeCtr := ctr }) := by
  obtain hs | hs := hs
  · rw [ownStep_decoded hs] at h
    obtain ⟨c, e, ws, -, -, -, ⟨v, -, rfl⟩ | ⟨x, -, rfl⟩⟩ := deliverDecoded_next h
    · exact ⟨_, _, _, rfl⟩
    · exact ⟨_, _, _, rfl⟩
  · rw [ownStep_failed hs] at h
    obtain ⟨info, -, rfl⟩ := deliverFailed_next h
    exact ⟨_, _, _, rfl⟩

end Sys2Proof.Machine
end

section
/-! PROOFS. Every step keeps the invariant, and from a state with the invariant no step faults and a transaction ends. -/

namespace Sys2Proof.Machine

/-! ### The own steps keep the invariant -/

/-- In a state with the invariant the registers beyond `RES_CNT` are empty. -/
theorem State.Inv.result_eq_none {s : State} (hs : s.Inv) (h : s.resCnt = 0) (i : Fin 8) : s.result[i] = none := by
  have hv := hs.resultValid i
  rw [h] at hv
  simpa using hv

/-- A raise keeps the invariant in a transaction that has no result yet (R224). -/
theorem raise_inv {s : State} (hs : s.Inv) (h : s.resCnt = 0) (info : Info) : (raise info s).Inv where
  curCmdAssigned := hs.curCmdAssigned
  curArgPresent := hs.curArgPresent
  expBytesLegal := hs.expBytesLegal
  txFrameLen := hs.txFrameLen
  rxLenEq := hs.rxLenEq
  rxLenLe := hs.rxLenLe
  resultValid := hs.resultValid
  phaseOk := ⟨h, info, rfl, rfl⟩

theorem expBytes_mod {s : State} {r : List Byte} (hr : r.length ≤ s.expBytes.val) : r.length % 37 = r.length :=
  Nat.mod_eq_of_lt (Nat.lt_of_le_of_lt hr s.expBytes.isLt)

theorem raise_recorded_inv {s : State} (hs : s.Inv) (h : s.resCnt = 0) {r : List Byte} (hr : r.length ≤ s.expBytes.val)
    (info : Info) : (raise info (recorded r s)).Inv where
  curCmdAssigned := hs.curCmdAssigned
  curArgPresent := hs.curArgPresent
  expBytesLegal := hs.expBytesLegal
  txFrameLen := hs.txFrameLen
  rxLenEq := expBytes_mod hr
  rxLenLe := hr
  resultValid := hs.resultValid
  phaseOk := ⟨h, info, rfl, rfl⟩

/-- What the invariant says of the two states of a transaction on the line: a latched command and no result yet. -/
theorem State.Inv.onLine {s : State} (hs : s.Inv) (h : s.fsmState = .requestSent ∨ s.fsmState = .awaitingResponse) :
    ∃ c e, Latched s c e ∧ s.txFrame = frame c (requestPayload e s.curArg) ∧ s.rxBuf = [] ∧ s.resCnt = 0 ∧ s.err = .none ∧
      s.errInfo = none := by
  have hp := hs.phaseOk
  obtain h | h := h <;> simpa only [PhaseOk, h] using hp

theorem State.Inv.resCnt_eq_zero {s : State} (hs : s.Inv)
    (h : s.fsmState = .requestSent ∨ s.fsmState = .awaitingResponse) : s.resCnt = 0 := by
  obtain ⟨c, e, -, -, -, hcnt, -⟩ := hs.onLine h
  exact hcnt

theorem writeStep_inv {s : State} (hs : s.Inv) (h : s.fsmState = .requestSent) : (writeStep s).Inv := by
  have hu := hs.of_sameTransaction (txWrite_sameTransaction s.txFrame s)
  obtain ⟨-, hw⟩ | ⟨-, hw⟩ := writeStep_cases s <;> rw [hw]
  · refine ⟨hu.curCmdAssigned, hu.curArgPresent, hu.expBytesLegal, hu.txFrameLen, hu.rxLenEq, hu.rxLenLe, hu.resultValid, ?_⟩
    exact hu.onLine (.inl (by simpa using h))
  · exact raise_inv hu (by simpa using hs.resCnt_eq_zero (.inl h)) _

theorem decodedWith_recorded_inv {s : State} (hs : s.Inv) (h : s.fsmState = .awaitingResponse) {r : List Byte}
    {ws : List Word} (hr : r.length = s.expBytes.val) (hws : ws.length = s.expN.toNat) :
    (decodedWith ws (recorded r s)).Inv where
  curCmdAssigned := hs.curCmdAssigned
  curArgPresent := hs.curArgPresent
  expBytesLegal := hs.expBytesLegal
  txFrameLen := hs.txFrameLen
  rxLenEq := expBytes_mod hr.le
  rxLenLe := hr.le
  resultValid i := by
    have hres : (decodedWith ws (recorded r s)).result[i] = ws[i.val]? := by
      rw [← Option.or_none (o := ws[i.val]?), ← hs.result_eq_none (hs.resCnt_eq_zero (.inr h)) i]
      exact mergeResult_getElem ws s.result i
    have hcnt : (decodedWith ws (recorded r s)).resCnt.val = s.expN.toNat := floatCount_mod s.expN
    rw [hres, hcnt, ← hws, isSome_getElem?]
  phaseOk := by
    obtain ⟨c, e, hl, -, -, -, herr, hinfo⟩ := hs.onLine (.inr h)
    obtain ⟨-, -, -, hn, -⟩ := id hl
    exact ⟨c, e, hl, hr, hn ▸ floatCount_mod s.expN, herr, hinfo⟩

/-- A read returns at most the bytes asked for (R63). -/
theorem rxRead_length_le {n : Nat} {s : State} {r : List Byte} (h : (rxRead n s).1 = some r) : r.length ≤ n := by
  obtain ⟨k, hk, -, hread, -⟩ | ⟨hnone, -⟩ := rxRead_cases n s
  · obtain rfl : s.rxPending.take k = r := Option.some.inj (hread.symm.trans h)
    exact (List.length_take_le _ _).trans hk
  · simp [h] at hnone

theorem readStep_inv {s t : State} (hs : s.Inv) (h : s.fsmState = .awaitingResponse) (hstep : readStep s = .next t) :
    t.Inv := by
  have hu := hs.of_sameTransaction (rxRead_sameTransaction s.expBytes.val s)
  have hcnt : (rxRead s.expBytes.val s).2.resCnt = 0 := by simpa using hs.resCnt_eq_zero (.inr h)
  obtain ⟨-, ⟨-, rfl⟩ | ⟨r, hr, hcheck⟩⟩ := readStep_next hstep
  · exact raise_inv hu hcnt _
  · have hlen : r.length ≤ (rxRead s.expBytes.val s).2.expBytes.val := by simpa using rxRead_length_le hr
    obtain ⟨info, rfl⟩ | ⟨hfull, ws, hws, rfl⟩ := checkResponse_next hcheck
    · exact raise_recorded_inv hu hcnt hlen info
    · exact decodedWith_recorded_inv hu (by simpa using h) (le_antisymm hlen hfull) hws

theorem finish_inv {s : State} (hs : s.Inv) (r : HostResult) (code : ErrCode) (ctr : Nat) :
    (finish (giveHost r { s with err := code, freeCtr := ctr })).Inv where
  curCmdAssigned := hs.curCmdAssigned
  curArgPresent := hs.curArgPresent
  expBytesLegal := hs.expBytesLegal
  txFrameLen := by simp
  rxLenEq := by simp
  rxLenLe := by simp
  resultValid := hs.resultValid
  phaseOk := ⟨rfl, rfl, rfl⟩

theorem ownStep_inv {s t : State} (hs : s.Inv) (h : ownStep s = .next t) : t.Inv := by
  have hdeliver (hf : s.fsmState = .decoded ∨ s.fsmState = .failed) : t.Inv := by
    obtain ⟨r, code, ctr, rfl⟩ := ownStep_delivers hf h
    exact finish_inv hs r code ctr
  cases hf : s.fsmState with
  | idle =>
    rw [ownStep_idle hf] at h
    cases h
    exact hs
  | requestSent =>
    rw [ownStep_requestSent hf] at h
    cases h
    exact writeStep_inv hs hf
  | awaitingResponse => exact readStep_inv hs hf (by rwa [ownStep_awaitingResponse hf] at h)
  | decoded => exact hdeliver (.inl hf)
  | failed => exact hdeliver (.inr hf)

/-- Settles O45: operations, the block's own steps and the events from outside each keep the invariant. -/
theorem stepKeepsTheInvariant : Obligations.StepKeepsTheInvariant := by
  intro s t hs h
  obtain ⟨is, xs, hcase⟩ := step_stepCase h
  have hu := hs.schedule is xs
  cases hcase with
  | run i h => exact exec_inv hu h
  | own h => exact ownStep_inv hu h
  | hold i h => exact h ▸ hu.of_sameTransaction (hold_sameTransaction i _)
  | arrive bs rest _ h => exact h ▸ hu.of_sameTransaction (envArrive_sameTransaction bs _)
  | chanClosed h => exact h ▸ hu.of_sameTransaction (envClose_sameTransaction _)
  | reset kept rest _ h => exact h ▸ invariantHoldsAtReset.of_sameTransaction (applyReset_sameTransaction kept _)

end Sys2Proof.Machine
end

section
/-! PROOFS. No step from a state with the invariant faults, and a transaction in progress ends within three steps (R16, R30, R226). -/

namespace Sys2Proof.Machine

/-! ### Each own step answers a next state -/

theorem checkResponse_progress {s : State} {c : Byte} {r : List Byte} (hc : s.curCmd = some c)
    (hb : s.expBytes.val = responseBytes s.expN s.cfgRespFramed) (hr : r.length ≤ s.expBytes.val) :
    ∃ t, checkResponse r s = .next t := by
  obtain hshort | hfull := hr.lt_or_eq
  · exact ⟨_, checkResponse_short hshort⟩
  · cases hf : s.cfgRespFramed with
    | false =>
      rw [hf] at hb
      obtain ⟨ws, -, -, hdec⟩ := decodeStep_of_length (p := r) (s := recorded r s) (hfull.trans hb)
      exact ⟨_, (checkResponse_raw hfull.ge hf).trans hdec⟩
    | true =>
      rw [hf] at hb
      obtain ⟨start, echo, len, p, chk, rfl, hp⟩ := exists_framed_parts (hfull.trans hb)
      rw [checkResponse_framed hf hc (by rw [hb, hp]; rfl) hp]
      cases strictCheck c s.expN start echo len chk (checksum ([start, echo, len] ++ p)) with
      | some info => exact ⟨_, rfl⟩
      | none =>
        obtain ⟨ws, -, -, hdec⟩ := decodeStep_of_length (p := p) (s := recorded ([start, echo, len] ++ p ++ [chk]) s) hp
        exact ⟨_, hdec⟩

theorem readStep_progress {s : State} (hs : s.Inv) (h : s.fsmState = .awaitingResponse) : ∃ t, readStep s = .next t := by
  obtain ⟨c, e, ⟨hcmd, -, -, hn, hb⟩, -⟩ := hs.onLine (.inr h)
  rw [← hn] at hb
  cases hr : (rxRead s.expBytes.val s).1 with
  | none => exact ⟨_, readStep_of_closed hb hr⟩
  | some r =>
    rw [readStep_of_bytes hb hr]
    exact checkResponse_progress (by simpa using hcmd) (by simpa using hb) (by simpa using rxRead_length_le hr)

theorem deliverDecoded_progress {s : State} (hs : s.Inv) (h : s.fsmState = .decoded) : ∃ t, deliverDecoded s = .next t := by
  have hp := hs.phaseOk
  simp only [PhaseOk, h] at hp
  obtain ⟨c, e, ⟨hcmd, he, -, -, -⟩, -, hcnt, -, -⟩ := hp
  have hle : s.resCnt.val ≤ 8 := Nat.le_of_lt_succ s.resCnt.isLt
  obtain ⟨ws, hlen, hws⟩ := exists_words hle fun i hi => (hs.resultValid i).mpr hi
  exact ⟨_, deliverDecoded_of_words hcmd he (resultWords_eq hle hlen hws) (hlen.trans hcnt)⟩

theorem deliverFailed_progress {s : State} (hs : s.Inv) (h : s.fsmState = .failed) : ∃ t, deliverFailed s = .next t := by
  have hp := hs.phaseOk
  simp only [PhaseOk, h] at hp
  obtain ⟨-, info, hinfo, -⟩ := hp
  exact ⟨_, deliverFailed_of_info hinfo⟩

theorem ownStep_progress {s : State} (hs : s.Inv) : ∃ t, ownStep s = .next t := by
  cases hf : s.fsmState with
  | idle => exact ⟨_, ownStep_idle hf⟩
  | requestSent => exact ⟨_, ownStep_requestSent hf⟩
  | awaitingResponse => rw [ownStep_awaitingResponse hf]; exact readStep_progress hs hf
  | decoded => rw [ownStep_decoded hf]; exact deliverDecoded_progress hs hf
  | failed => rw [ownStep_failed hf]; exact deliverFailed_progress hs hf

/-- Settles O46: only the block's own step could fault, and it answers a next state from every state with the invariant. -/
theorem invariantExcludesFaults : Obligations.InvariantExcludesFaults := by
  intro s hs f h
  obtain ⟨is, xs, hfault⟩ := step_fault h
  obtain ⟨t, ht⟩ := ownStep_progress (hs.schedule is xs)
  cases hfault.symm.trans ht

/-! ### What the own steps write outside the transaction registers -/

/-- A write appends a first part of its bytes, all of them on success (R62). -/
theorem txWrite_txStream (bs : List Byte) (s : State) : ∃ k, (txWrite bs s).2.txStream = s.txStream ++ bs.take k := by
  obtain ⟨-, -, h⟩ | ⟨-, h⟩ := txWrite_cases bs s
  · exact ⟨bs.length, by rw [h, List.take_length]⟩
  · exact h

/-- What the write step does beside the registers (R163). -/
theorem writeStep_effect (s : State) :
    ((writeStep s).fsmState = .awaitingResponse ∨ (writeStep s).fsmState = .failed) ∧
      (∃ k, (writeStep s).txStream = s.txStream ++ s.txFrame.take k) ∧ (writeStep s).rxPending = s.rxPending ∧
      (writeStep s).hostOut = s.hostOut ∧ (writeStep s).inputs = s.inputs ∧
      (writeStep s).cfgRespFramed = s.cfgRespFramed ∧ (writeStep s).cfgTTimeout = s.cfgTTimeout := by
  have htx := txWrite_txStream s.txFrame s
  obtain ⟨-, hw⟩ | ⟨-, hw⟩ := writeStep_cases s <;> simpa [hw] using htx

/-- What the read step does beside the registers when it answers a next state (R164, R165). -/
theorem readStep_effect {s t : State} (h : readStep s = .next t) :
    (t.fsmState = .decoded ∨ t.fsmState = .failed) ∧ t.txStream = s.txStream ∧
      (∃ k, k ≤ s.expBytes.val ∧ t.rxPending = s.rxPending.drop k) ∧ t.hostOut = s.hostOut ∧ t.inputs = s.inputs ∧
      t.cfgRespFramed = s.cfgRespFramed ∧ t.cfgTTimeout = s.cfgTTimeout := by
  have hpend : ∃ k, k ≤ s.expBytes.val ∧ (rxRead s.expBytes.val s).2.rxPending = s.rxPending.drop k := by
    obtain ⟨k, hk, -, -, hp, -⟩ | ⟨-, hp, -⟩ := rxRead_cases s.expBytes.val s
    · exact ⟨k, hk, hp⟩
    · exact ⟨0, Nat.zero_le _, hp⟩
  obtain ⟨-, ⟨-, rfl⟩ | ⟨r, -, hcheck⟩⟩ := readStep_next h
  · simpa using hpend
  · obtain ⟨info, rfl⟩ | ⟨-, ws, -, rfl⟩ := checkResponse_next hcheck <;> simpa using hpend

/-! ### Steps with nothing to come -/

theorem step_eq_ownStep {s : State} (hin : s.inputs = []) (h : s.fsmState ≠ .idle ∨ s.held = []) : step s = ownStep s := by
  simp only [step, nextEvent_own hin h]

theorem step_requestSent {s : State} (hin : s.inputs = []) (h : s.fsmState = .requestSent) : step s = .next (writeStep s) := by
  rw [step_eq_ownStep hin (.inl (by simp [h])), ownStep_requestSent h]

theorem step_awaitingResponse {s : State} (hin : s.inputs = []) (h : s.fsmState = .awaitingResponse) : step s = readStep s := by
  rw [step_eq_ownStep hin (.inl (by simp [h])), ownStep_awaitingResponse h]

theorem step_decoded {s : State} (hin : s.inputs = []) (h : s.fsmState = .decoded) : step s = deliverDecoded s := by
  rw [step_eq_ownStep hin (.inl (by simp [h])), ownStep_decoded h]

theorem step_failed {s : State} (hin : s.inputs = []) (h : s.fsmState = .failed) : step s = deliverFailed s := by
  rw [step_eq_ownStep hin (.inl (by simp [h])), ownStep_failed h]

/-- The first step of a run. -/
theorem run_succ {s t u : State} {k : Nat} (h : step s = .next t) (hrun : Host.Core.run Sys2Proof.core k t = .next u) :
    Host.Core.run Sys2Proof.core (k + 1) s = .next u := by
  have hs : Sys2Proof.core.step s = .next t := h
  simp only [Host.Core.run, hs]
  exact hrun

/-- `k` steps lead from `s` to `IDLE` with exactly one more result handed over. -/
def Finishes (k : Nat) (s : State) : Prop :=
  ∃ t, Host.Core.run Sys2Proof.core k s = .next t ∧ t.fsmState = .idle ∧ ∃ r, t.hostOut = s.hostOut ++ [r]

theorem Finishes.succ {k : Nat} {s t : State} (h : Finishes k t) (hstep : step s = .next t) (hout : t.hostOut = s.hostOut) :
    Finishes (k + 1) s := by
  obtain ⟨u, hrun, hidle, hr⟩ := h
  exact ⟨u, run_succ hstep hrun, hidle, hout ▸ hr⟩

theorem finishes_of_delivery {s : State} (hs : s.Inv) (hin : s.inputs = []) (h : s.fsmState = .decoded ∨ s.fsmState = .failed) :
    Finishes 1 s := by
  obtain ⟨t, ht⟩ := ownStep_progress hs
  have hstep : step s = .next t := by
    rw [step_eq_ownStep hin (.inl (by obtain h | h := h <;> simp [h])), ht]
  obtain ⟨r, code, ctr, rfl⟩ := ownStep_delivers h ht
  exact ⟨_, run_succ hstep rfl, rfl, r, rfl⟩

theorem finishes_of_awaitingResponse {s : State} (hs : s.Inv) (hin : s.inputs = []) (h : s.fsmState = .awaitingResponse) :
    Finishes 2 s := by
  obtain ⟨t, ht⟩ := readStep_progress hs h
  obtain ⟨hphase, -, -, hout, hinputs, -⟩ := readStep_effect ht
  have hstep := (step_awaitingResponse hin h).trans ht
  exact (finishes_of_delivery (readStep_inv hs h ht) (hinputs.trans hin) hphase).succ hstep hout

/-- Settles O41: a write, a read and a delivery, each of which answers a next state, and only the delivery hands a result over. -/
theorem transactionFinishesInThreeSteps : Obligations.TransactionFinishesInThreeSteps := by
  intro s hs hbusy hin
  cases hf : s.fsmState with
  | idle => exact absurd hf hbusy
  | requestSent =>
    have hstep := step_requestSent hin hf
    obtain ⟨hphase, -, -, hout, hinputs, -⟩ := writeStep_effect s
    have ht := writeStep_inv hs hf
    obtain hphase | hphase := hphase
    · exact ⟨3, by omega, by omega, (finishes_of_awaitingResponse ht (hinputs.trans hin) hphase).succ hstep hout⟩
    · exact ⟨2, by omega, by omega, (finishes_of_delivery ht (hinputs.trans hin) (.inr hphase)).succ hstep hout⟩
  | awaitingResponse => exact ⟨2, by omega, by omega, finishes_of_awaitingResponse hs hin hf⟩
  | decoded => exact ⟨1, by omega, by omega, finishes_of_delivery hs hin (.inl hf)⟩
  | failed => exact ⟨1, by omega, by omega, finishes_of_delivery hs hin (.inr hf)⟩

end Sys2Proof.Machine
end

section
/-! PROOFS. The transport primitives with the answer the environment lists, or a free one (R62, R63). -/

namespace Sys2Proof.Machine

/-! ### `TxWrite` -/

theorem takeTx_of_cons {s : State} {d : TxDraw} {ds : List TxDraw} (h : s.txDraws = d :: ds) :
    takeTx s = (d, { s with txDraws := ds }) := by
  simp only [takeTx, h]

theorem takeTx_of_nil {s : State} (h : s.txDraws = []) :
    takeTx s = (Config.freeTx s.freeCtr, { s with freeCtr := s.freeCtr + 1 }) := by
  simp only [takeTx, h]

theorem txWrite_of_ok {s t : State} {d : TxDraw} (hd : takeTx s = (d, t)) (ho : s.chanOpen = true) (hf : d.fails = false)
    (bs : List Byte) : txWrite bs s = (true, { t with txStream := t.txStream ++ bs }) := by
  simp [txWrite, hd, ho, hf]

theorem txWrite_of_fail {s t : State} {d : TxDraw} (hd : takeTx s = (d, t)) (h : s.chanOpen = false ∨ d.fails = true)
    (bs : List Byte) : txWrite bs s = (false, { t with txStream := t.txStream ++ bs.take d.kept }) := by
  obtain h | h := h <;> simp [txWrite, hd, h]

/-- Settles O25: a listed answer or a free one, each with its two outcomes. -/
theorem txWriteAppendsAllOrAPart : Obligations.TxWriteAppendsAllOrAPart := by
  refine ⟨fun bs d ds s hd => ⟨fun ho hf => ?_, fun h => ?_⟩, fun bs s hd => ?_⟩
  · rw [txWrite_of_ok (takeTx_of_cons hd) ho hf]
  · rw [txWrite_of_fail (takeTx_of_cons hd) h, ← List.take_eq_take_min]
  · by_cases h : s.chanOpen = true ∧ (Config.freeTx s.freeCtr).fails = false
    · exact .inl ⟨h.1, by rw [txWrite_of_ok (takeTx_of_nil hd) h.1 h.2]⟩
    · refine .inr ⟨min (Config.freeTx s.freeCtr).kept bs.length, Nat.min_le_right _ _, ?_⟩
      have h : s.chanOpen = false ∨ (Config.freeTx s.freeCtr).fails = true := by simpa [imp_iff_not_or] using h
      rw [txWrite_of_fail (takeTx_of_nil hd) h, ← List.take_eq_take_min]

/-! ### `RxRead` -/

theorem takeRx_of_cons {s : State} {d : RxDraw} {ds : List RxDraw} (h : s.rxDraws = d :: ds) :
    takeRx s = (d, { s with rxDraws := ds }) := by
  simp only [takeRx, h]

theorem takeRx_of_nil {s : State} (h : s.rxDraws = []) :
    takeRx s = (Config.freeRx s.freeCtr, { s with freeCtr := s.freeCtr + 1 }) := by
  simp only [takeRx, h]

theorem rxRead_of_bytes {s t : State} {k : Nat} (hd : takeRx s = (.bytes k, t)) (ho : s.chanOpen = true) (n : Nat) :
    rxRead n s = (some (t.rxPending.take (min k n)), { t with rxPending := t.rxPending.drop (min k n) }) := by
  simp only [rxRead, hd, ho]

theorem rxRead_of_closed {s t : State} {d : RxDraw} (hd : takeRx s = (d, t)) (h : s.chanOpen = false ∨ d = .closed) (n : Nat) :
    rxRead n s = (none, { t with chanOpen := false }) := by
  obtain h | rfl := h
  · simp only [rxRead, hd, h]
  · cases ho : s.chanOpen <;> simp only [rxRead, hd, ho]

/-- Settles O26: the draw decides between a first part of what is pending and `closed`; an arrival is a step of its own. -/
theorem rxReadTakesFromTheFront : Obligations.RxReadTakesFromTheFront := by
  refine ⟨fun n d ds s hd => ⟨?_, fun h => rxRead_of_closed (takeRx_of_cons hd) h n⟩, fun n s hd => ?_, fun s bs rest hin => ?_⟩
  · rintro k ho rfl
    exact ⟨_, _, (List.take_append_drop _ _).symm, List.length_take, rxRead_of_bytes (takeRx_of_cons hd) ho n⟩
  · cases hfree : Config.freeRx s.freeCtr with
    | closed => exact .inr (rxRead_of_closed (takeRx_of_nil hd) (.inr hfree) n)
    | bytes k =>
      obtain ho | ho := Bool.eq_false_or_eq_true s.chanOpen
      · have hlen : (s.rxPending.take (min k n)).length ≤ n := (List.length_take_le _ _).trans (Nat.min_le_right k n)
        have hd := (takeRx_of_nil hd).trans (by rw [hfree])
        exact .inl ⟨ho, _, _, (List.take_append_drop _ _).symm, hlen, rxRead_of_bytes hd ho n⟩
      · exact .inr (rxRead_of_closed (takeRx_of_nil hd) (.inl ho) n)
  · simp only [step, nextEvent_input hin, eventOf, envArrive]

end Sys2Proof.Machine
end

section
/-! PROOFS. Whole transactions (R160 to R166 in sequence): a decoded response, a short read, a failed write. -/

namespace Sys2Proof.Machine

/-- A command with well-formed arguments, presented in `IDLE` on an open channel, is latched (R161, R162). -/
theorem exec_command {p : Byte × (List Int → Instr)} (hp : p ∈ commandForms) {e : CmdEntry} (he : cmdEntry? p.1 = some e)
    {args : List Int} (hwf : (p.2 args).wf = true) {s : State} (hidle : s.fsmState = .idle) (hopen : s.chanOpen = true) :
    exec (p.2 args) s = .next (latch e (argWord args) (clearTransaction s)) := by
  obtain ⟨hlen, hargs⟩ := commandForms_args_of_wf hp he hwf
  refine exec_of_presendCheck_ok (commandForms_execOperands p hp args) hidle ?_
  rw [presendCheck_of_words he hlen hargs, hopen]
  rfl

/-! ### The write -/

/-- The state after the request of `e` went out whole, the listed answer taken. -/
def awaitingAfter (e : CmdEntry) (arg : Option Word) (ds : List TxDraw) (s : State) : State :=
  { latch e arg (clearTransaction s) with
    txDraws := ds
    txStream := s.txStream ++ frame e.id (requestPayload e arg)
    fsmState := .awaitingResponse }

theorem step_latch_ok {e : CmdEntry} {arg : Option Word} {kept : Nat} {ds : List TxDraw} {s : State}
    (hopen : s.chanOpen = true) (hin : s.inputs = []) (hd : s.txDraws = ⟨false, kept⟩ :: ds) :
    step (latch e arg (clearTransaction s)) = .next (awaitingAfter e arg ds s) := by
  have hw := txWrite_of_ok (s := latch e arg (clearTransaction s)) (takeTx_of_cons hd) hopen rfl (frame e.id (requestPayload e arg))
  rw [step_requestSent (s := latch e arg (clearTransaction s)) hin rfl, writeStep, latch_txFrame, hw]
  rfl

/-! ### The read and the delivery -/

theorem step_awaiting {e : CmdEntry} {arg : Option Word} {ds : List TxDraw} {k : Nat} {rs : List RxDraw} {s : State}
    (hopen : s.chanOpen = true) (hin : s.inputs = []) (hd : s.rxDraws = .bytes k :: rs) :
    step (awaitingAfter e arg ds s) = checkResponse (s.rxPending.take (min k (responseBytes e.n s.cfgRespFramed)))
      { awaitingAfter e arg ds s with
        rxDraws := rs, rxPending := s.rxPending.drop (min k (responseBytes e.n s.cfgRespFramed)) } := by
  have hb : (awaitingAfter e arg ds s).expBytes.val = responseBytes e.n s.cfgRespFramed := ofNat_responseBytes e.n s.cfgRespFramed
  have hr := rxRead_of_bytes (s := awaitingAfter e arg ds s) (takeRx_of_cons hd) hopen (responseBytes e.n s.cfgRespFramed)
  rw [step_awaitingResponse (s := awaitingAfter e arg ds s) hin rfl,
    readStep_of_bytes (r := s.rxPending.take (min k (responseBytes e.n s.cfgRespFramed))) hb (by rw [hb, hr]; rfl), hb, hr]
  rfl

theorem responseOnLine_framed (c : Byte) (p : List Byte) : responseOnLine true c p = frame c p := (frame_eq_bytes c p).symm

theorem responseOnLine_length {n : FloatCount} {p : List Byte} (h : p.length = 4 * n.toNat) (framed : Bool) (c : Byte) :
    (responseOnLine framed c p).length = responseBytes n framed := by
  cases framed with
  | false => exact h
  | true => rw [responseOnLine_framed, frame_length, h]; rfl

/-- A well-formed response passes the checks of its mode, so its payload is decoded (R96, R97). -/
theorem checkResponse_responseOnLine {s : State} {c : Byte} {p : List Byte} (hc : s.curCmd = some c)
    (hb : s.expBytes.val = responseBytes s.expN s.cfgRespFramed) (hp : p.length = 4 * s.expN.toNat) :
    checkResponse (responseOnLine s.cfgRespFramed c p) s = decodeStep p (recorded (responseOnLine s.cfgRespFramed c p) s) := by
  cases hf : s.cfgRespFramed with
  | false =>
    rw [hf] at hb
    exact checkResponse_raw (by rw [hb, responseOnLine_length hp]) hf
  | true =>
    rw [hf] at hb
    have hn := floatCount_le s.expN
    have hlen : (BitVec.ofNat 8 p.length).toNat = 4 * s.expN.toNat := by
      rw [BitVec.toNat_ofNat, Nat.mod_eq_of_lt (by omega), hp]
    have hcheck : strictCheck c s.expN Config.startByte c (BitVec.ofNat 8 p.length) (checksum (frameBody c p))
        (checksum (frameBody c p)) = none := by
      simp [strictCheck, hlen]
    have h := checkResponse_framed (start := Config.startByte) (echo := c) (len := BitVec.ofNat 8 p.length)
      (chk := checksum (frameBody c p)) hf hc (by rw [hb, hp]; rfl) hp
    rw [← frameBody, hcheck] at h
    rw [responseOnLine_framed]
    exact h

theorem step_raised {info : Info} {s : State} (hin : s.inputs = []) :
    step (raise info s) = .next (finish (giveHost (.err (errCodeOf info) info) (raise info s))) := by
  rw [step_failed (s := raise info s) hin rfl, deliverFailed_of_info rfl]
  rfl

/-- The `ERR` an outcome names is the one its delivery writes over the cleared one (R166). -/
theorem outcomeOf_err (post : PostClass) (fresh : Nat) (ws : List Word) :
    (if (outcomeOf post fresh ws).2 = .none then ErrCode.none else .nonFiniteIntegerError) = (outcomeOf post fresh ws).2 := by
  cases post with
  | real => rfl
  | real7 => rfl
  | int => cases h : trunc (round6 fresh (ws.headD 0#32)) <;> simp only [outcomeOf, h] <;> rfl

/-- A read drawn to return `k` bytes that falls short of `n` returns `k` bytes, or all that are pending (R63). -/
theorem take_drop_of_short {pending got rest : List Byte} {k n : Nat} (h : pending = got ++ rest)
    (hgot : got.length = min k pending.length) (hn : got.length < n) :
    pending.take (min k n) = got ∧ pending.drop (min k n) = rest := by
  subst h
  cases rest with
  | nil =>
    have hle : (got ++ []).length ≤ min k n := by simp at hgot ⊢; omega
    exact ⟨by rw [List.take_of_length_le hle, List.append_nil], List.drop_of_length_le hle⟩
  | cons b rest =>
    have hk : min k n = got.length := by simp at hgot; omega
    exact ⟨by rw [hk, List.take_left], by rw [hk, List.drop_left]⟩

/-! ### The transactions -/

/-- Settles O38: the latch, the write, the read with its decode, and the delivery, one event each. -/
theorem transactionDeliversTheDecodedResponse : Obligations.TransactionDeliversTheDecodedResponse := by
  intro p hp e he args hwf s kept k ds rs payload rest ws hidle hopen hheld hin htx hrx hk hpend hplen hws
  have hid : e.id = p.1 := cmdEntry?_id he
  have hexec := exec_command hp he hwf hidle hopen
  have h1 := step_latch_ok (e := e) (arg := argWord args) hopen hin htx
  have h2 := step_awaiting (e := e) (arg := argWord args) (ds := ds) hopen hin hrx
  set r := responseOnLine s.cfgRespFramed p.1 payload with hr
  have hrlen : r.length = responseBytes e.n s.cfgRespFramed := responseOnLine_length hplen _ _
  have hmin : min k (responseBytes e.n s.cfgRespFramed) = r.length := by
    rw [hrlen]
    exact Nat.min_eq_right ((responseBytes_le _ _).trans hk)
  rw [hpend, hmin, List.take_left, List.drop_left] at h2
  set u : State := { awaitingAfter e (argWord args) ds s with rxDraws := rs, rxPending := rest } with hu
  have hdec : checkResponse r u = decodeStep payload (recorded r u) :=
    checkResponse_responseOnLine (s := u) (congrArg some hid) (ofNat_responseBytes e.n s.cfgRespFramed) hplen
  obtain ⟨ws', hws', hwlen, hnext⟩ := decodeStep_of_length (p := payload) (s := recorded r u) hplen
  obtain rfl : ws = ws' := Option.some.inj (hws.symm.trans hws')
  have hwlen : ws.length = e.n.toNat := hwlen
  rw [hdec, hnext] at h2
  have hres (i : Fin 8) : (decodedWith ws (recorded r u)).result[i] = ws[i.val]? := by
    rw [← Option.or_none (o := ws[i.val]?)]
    exact (mergeResult_getElem ws _ i).trans (by simp [hu, recorded, awaitingAfter])
  have hcnt : (decodedWith ws (recorded r u)).resCnt.val = e.n.toNat := floatCount_mod e.n
  have hfile := resultWords_eq (hcnt ▸ floatCount_le e.n) (hwlen.trans hcnt.symm) fun i _ => hres i
  have h3 := (step_decoded (s := decodedWith ws (recorded r u)) hin rfl).trans
    (deliverDecoded_of_words (congrArg some hid) he hfile hwlen)
  refine ⟨_, _, hexec, run_succ h1 (run_succ h2 (run_succ h3 rfl)), rfl, hopen, rfl, rfl, congrArg some hid, rfl, rfl, rfl,
    ofNat_responseBytes e.n s.cfgRespFramed, rfl, rfl, rfl, hcnt, hres, ?_, rfl, rfl, outcomeOf_err _ _ _⟩
  rw [← hid]
  rfl

/-- Settles O39: a read that falls short raises, and the error is delivered. -/
theorem shortReadIsDeliveredAndRecoverable : Obligations.ShortReadIsDeliveredAndRecoverable := by
  intro p hp e he args hwf s kept k ds rs got rest hidle hopen hheld hin htx hrx hpend hgot hshort
  have hid : e.id = p.1 := cmdEntry?_id he
  have hexec := exec_command hp he hwf hidle hopen
  have h1 := step_latch_ok (e := e) (arg := argWord args) hopen hin htx
  have h2 := step_awaiting (e := e) (arg := argWord args) (ds := ds) hopen hin hrx
  obtain ⟨htake, hdrop⟩ := take_drop_of_short hpend hgot hshort
  rw [htake, hdrop] at h2
  have hb : (awaitingAfter e (argWord args) ds s).expBytes.val = responseBytes e.n s.cfgRespFramed :=
    ofNat_responseBytes e.n s.cfgRespFramed
  replace h2 := h2.trans (checkResponse_short (hshort.trans_eq hb.symm))
  rw [hb] at h2
  have h3 := step_raised (info := .shortRead (responseBytes e.n s.cfgRespFramed) got.length) (s := recorded got
    { awaitingAfter e (argWord args) ds s with rxDraws := rs, rxPending := rest }) hin
  refine ⟨_, _, hexec, run_succ h1 (run_succ h2 (run_succ h3 rfl)), rfl, hopen, rfl, rfl, rfl, fun i => ?_, ?_, rfl, rfl, rfl⟩
  · exact Vector.getElem_replicate i.isLt
  · rw [← hid]
    rfl

/-- Settles O40: a write that fails raises at once, and the error is delivered. -/
theorem failedWriteMakesNoRead : Obligations.FailedWriteMakesNoRead := by
  intro p hp e he args hwf s kept ds hidle hopen hheld hin htx
  have hid : e.id = p.1 := cmdEntry?_id he
  have hexec := exec_command hp he hwf hidle hopen
  set t := latch e (argWord args) (clearTransaction s) with ht
  have hw := txWrite_of_fail (s := t) (takeTx_of_cons htx) (.inr rfl) t.txFrame
  have h1 : step t = .next (raise .writeFailed (txWrite t.txFrame t).2) := by
    rw [step_requestSent (s := t) hin rfl, writeStep, hw]
  have h2 := step_raised (info := .writeFailed) (s := (txWrite t.txFrame t).2) (by rw [txWrite_inputs]; exact hin)
  rw [hw] at h1 h2
  refine ⟨_, _, hexec, run_succ h1 (run_succ h2 rfl), rfl, rfl, fun i => ?_, ?_, rfl, rfl, rfl, rfl⟩
  · exact Vector.getElem_replicate i.isLt
  · rw [← hid]
    rfl

end Sys2Proof.Machine
end

section
/-! PROOFS. What every step does to the state machine, the streams, the results and the configuration (R23, R33, R34, R37, R220). -/

namespace Sys2Proof.Machine

/-! ### Operations -/

/-- What acceptance does beside the transaction registers (R160 to R162). -/
theorem accept_effect (cmd : Int) (args : List Int) (s : State) :
    ((accept cmd args s).fsmState = .requestSent ∨ (accept cmd args s).fsmState = .failed) ∧
      (accept cmd args s).txStream = s.txStream ∧ (accept cmd args s).rxPending = s.rxPending ∧
      (accept cmd args s).hostOut = s.hostOut ∧ (accept cmd args s).cfgRespFramed = s.cfgRespFramed ∧
      (accept cmd args s).cfgTTimeout = s.cfgTTimeout := by
  obtain ⟨e, arg, -, ha⟩ | ⟨info, -, ha⟩ := accept_cases cmd args s <;> simp [ha]

/-- What `OPEN` in `IDLE` does beside the channel and the configuration (R167). -/
theorem openEffect_effect (f : Int) (n : Nat) (s : State) :
    (openEffect f n s).fsmState = s.fsmState ∧ (openEffect f n s).txStream = s.txStream ∧
      (openEffect f n s).rxPending = s.rxPending ∧ ∃ r, (openEffect f n s).hostOut = s.hostOut ++ [r] := by
  unfold openEffect
  split_ifs
  · exact ⟨rfl, rfl, rfl, _, rfl⟩
  · dsimp only
    cases (takeOpen s).1 <;> simp

/-! ### One step -/

/-- What a step from `s` to `t` does to the state machine, the streams and the results. -/
inductive StepEffect (s t : State) : Prop where
  /-- An operation completes or is held, the channel closes, or the idle block waits. -/
  | stay (hfsm : t.fsmState = s.fsmState) (htx : t.txStream = s.txStream) (hrx : t.rxPending = s.rxPending)
      (hout : t.hostOut = s.hostOut ∨ ∃ r, t.hostOut = s.hostOut ++ [r])
  | arrive (bs : List Byte) (rest : List Input) (hin : s.inputs = .arrive bs :: rest) (hfsm : t.fsmState = s.fsmState)
      (htx : t.txStream = s.txStream) (hrx : t.rxPending = s.rxPending ++ bs) (hout : t.hostOut = s.hostOut)
  | accept (hs : s.fsmState = .idle) (ht : t.fsmState = .requestSent ∨ t.fsmState = .failed)
      (htx : t.txStream = s.txStream) (hrx : t.rxPending = s.rxPending) (hout : t.hostOut = s.hostOut)
  | write (hs : s.fsmState = .requestSent) (ht : t.fsmState = .awaitingResponse ∨ t.fsmState = .failed)
      (htx : ∃ k, t.txStream = s.txStream ++ s.txFrame.take k) (hrx : t.rxPending = s.rxPending) (hout : t.hostOut = s.hostOut)
  | read (hs : s.fsmState = .awaitingResponse) (ht : t.fsmState = .decoded ∨ t.fsmState = .failed)
      (htx : t.txStream = s.txStream) (hrx : ∃ k, k ≤ s.expBytes.val ∧ t.rxPending = s.rxPending.drop k)
      (hout : t.hostOut = s.hostOut)
  | deliver (hs : s.fsmState = .decoded ∨ s.fsmState = .failed) (ht : t.fsmState = .idle) (htx : t.txStream = s.txStream)
      (hrx : t.rxPending = s.rxPending) (hout : ∃ r, t.hostOut = s.hostOut ++ [r])
  | reset (kept : Nat) (rest : List Input) (hin : s.inputs = .reset kept :: rest) (ht : t.fsmState = .idle)
      (htx : t.txStream = s.txStream ++ if s.fsmState = .requestSent then s.txFrame.take kept else [])
      (hrx : t.rxPending = s.rxPending) (hout : t.hostOut = s.hostOut)

theorem exec_stepEffect {i : Instr} {s t : State} {is : List Instr} {xs : List Input}
    (h : exec i { s with held := is, inputs := xs } = .next t) : StepEffect s t := by
  set u : State := { s with held := is, inputs := xs } with hu
  obtain ⟨r, hx⟩ | ⟨j, -, hx⟩ | ⟨cmd, args, hidle, -, hx⟩ | ⟨f, n, -, hx⟩ | ⟨-, hx⟩ := exec_cases i u <;> rw [hx] at h <;> cases h
  · exact .stay rfl rfl rfl (.inr ⟨r, rfl⟩)
  · exact .stay rfl rfl rfl (.inl rfl)
  · obtain ⟨hfsm, htx, hrx, hout, -⟩ := accept_effect cmd args u
    exact .accept hidle hfsm htx hrx hout
  · obtain ⟨hfsm, htx, hrx, hout⟩ := openEffect_effect f n u
    exact .stay hfsm htx hrx (.inr hout)
  · exact .stay rfl rfl rfl (.inr ⟨.done, rfl⟩)

theorem ownStep_stepEffect {s t : State} {is : List Instr} {xs : List Input}
    (h : ownStep { s with held := is, inputs := xs } = .next t) : StepEffect s t := by
  set u : State := { s with held := is, inputs := xs } with hu
  have hdeliver (hs : u.fsmState = .decoded ∨ u.fsmState = .failed) : StepEffect s t := by
    obtain ⟨r, code, ctr, rfl⟩ := ownStep_delivers hs h
    exact .deliver hs rfl rfl rfl ⟨r, rfl⟩
  cases hs : u.fsmState with
  | idle =>
    have ht : u = t := Host.Outcome.next.inj ((ownStep_idle hs).symm.trans h)
    exact ht ▸ .stay rfl rfl rfl (.inl rfl)
  | requestSent =>
    cases (ownStep_requestSent hs).symm.trans h
    obtain ⟨ht, htx, hrx, hout, -⟩ := writeStep_effect u
    exact .write hs ht htx hrx hout
  | awaitingResponse =>
    obtain ⟨ht, htx, hrx, hout, -⟩ := readStep_effect ((ownStep_awaitingResponse hs).symm.trans h)
    exact .read hs ht htx hrx hout
  | decoded => exact hdeliver (.inl hs)
  | failed => exact hdeliver (.inr hs)

theorem step_stepEffect {s t : State} (h : step s = .next t) : StepEffect s t := by
  obtain ⟨is, xs, hcase⟩ := step_stepCase h
  cases hcase with
  | run i h => exact exec_stepEffect h
  | own h => exact ownStep_stepEffect h
  | hold i h => exact h ▸ .stay rfl rfl rfl (.inl rfl)
  | arrive bs rest hin h => exact h ▸ .arrive bs rest hin rfl rfl rfl rfl
  | chanClosed h => exact h ▸ .stay rfl rfl rfl (.inl rfl)
  | reset kept rest hin h => exact h ▸ .reset kept rest hin rfl rfl rfl rfl

theorem fsmEdge_refl (a : FsmState) : fsmEdge a a = true := by cases a <;> rfl

theorem fsmEdge_idle (a : FsmState) : fsmEdge a .idle = true := by cases a <;> rfl

/-- Settles O47: each event's edge; of them only a delivery and a reset lead to `IDLE`. -/
theorem stepFollowsTheStateMachine : Obligations.StepFollowsTheStateMachine := by
  intro s t h
  cases step_stepEffect h with
  | stay hfsm => exact ⟨hfsm ▸ fsmEdge_refl _, fun hs ht => absurd (hfsm.symm.trans ht) hs⟩
  | arrive bs rest hin hfsm => exact ⟨hfsm ▸ fsmEdge_refl _, fun hs ht => absurd (hfsm.symm.trans ht) hs⟩
  | accept hs ht => obtain ht | ht := ht <;> simp [hs, ht, fsmEdge]
  | write hs ht => obtain ht | ht := ht <;> simp [hs, ht, fsmEdge]
  | read hs ht => obtain ht | ht := ht <;> simp [hs, ht, fsmEdge]
  | deliver hs ht htx hrx hout => exact ⟨ht ▸ fsmEdge_idle _, fun _ _ => .inr ⟨hs, hout⟩⟩
  | reset kept rest hin ht => exact ⟨ht ▸ fsmEdge_idle _, fun _ _ => .inl ⟨kept, rest, hin⟩⟩

/-- Settles O48: the write step and a reset that meets it append a first part of the frame, and nothing else writes the stream. -/
theorem txStreamIsAppendOnly : Obligations.TxStreamIsAppendOnly := by
  intro s t h
  cases step_stepEffect h with
  | stay hfsm htx => exact .inl htx
  | arrive bs rest hin hfsm htx => exact .inl htx
  | accept hs ht htx => exact .inl htx
  | write hs ht htx => exact .inr ⟨hs, htx⟩
  | read hs ht htx => exact .inl htx
  | deliver hs ht htx => exact .inl htx
  | reset kept rest hin ht htx =>
    by_cases hs : s.fsmState = .requestSent
    · exact .inr ⟨hs, kept, by rw [htx, if_pos hs]⟩
    · exact .inl (by rw [htx, if_neg hs, List.append_nil])

/-- Settles O49: only the read step takes bytes, and only an arrival adds them. -/
theorem rxPendingIsConsumedOnlyByTheReadStep : Obligations.RxPendingIsConsumedOnlyByTheReadStep := by
  intro s t h
  cases step_stepEffect h with
  | stay hfsm htx hrx => exact .inl hrx
  | arrive bs rest hin hfsm htx hrx => exact .inr (.inl ⟨bs, rest, hin, hrx⟩)
  | accept hs ht htx hrx => exact .inl hrx
  | write hs ht htx hrx => exact .inl hrx
  | read hs ht htx hrx => exact .inr (.inr ⟨hs, hrx⟩)
  | deliver hs ht htx hrx => exact .inl hrx
  | reset kept rest hin ht htx hrx => exact .inl hrx

/-- Settles O50: an operation hands over at most one result, a delivery one, and no other event any. -/
theorem stepDeliversAtMostOneResult : Obligations.StepDeliversAtMostOneResult := by
  intro s t h
  cases step_stepEffect h with
  | stay hfsm htx hrx hout => exact hout
  | arrive bs rest hin hfsm htx hrx hout => exact .inl hout
  | accept hs ht htx hrx hout => exact .inl hout
  | write hs ht htx hrx hout => exact .inl hout
  | read hs ht htx hrx hout => exact .inl hout
  | deliver hs ht htx hrx hout => exact .inr hout
  | reset kept rest hin ht htx hrx hout => exact .inl hout

/-! ### The configuration -/

/-- An operation accepted only in `IDLE` keeps what its effect and holding keep. -/
theorem present_keeps_cfg {i : Instr} {f : State → State} {s t : State}
    (hf : (f s).cfgRespFramed = s.cfgRespFramed ∧ (f s).cfgTTimeout = s.cfgTTimeout) (h : present i f s = .next t) :
    t.cfgRespFramed = s.cfgRespFramed ∧ t.cfgTTimeout = s.cfgTTimeout := by
  by_cases hs : s.fsmState = .idle
  · cases (present_idle hs).symm.trans h
    exact hf
  · cases (present_busy hs).symm.trans h
    exact ⟨rfl, rfl⟩

theorem ownStep_keeps_cfg {s t : State} (h : ownStep s = .next t) :
    t.cfgRespFramed = s.cfgRespFramed ∧ t.cfgTTimeout = s.cfgTTimeout := by
  have hdeliver (hs : s.fsmState = .decoded ∨ s.fsmState = .failed) :
      t.cfgRespFramed = s.cfgRespFramed ∧ t.cfgTTimeout = s.cfgTTimeout := by
    obtain ⟨r, code, ctr, rfl⟩ := ownStep_delivers hs h
    exact ⟨rfl, rfl⟩
  cases hs : s.fsmState with
  | idle =>
    cases (ownStep_idle hs).symm.trans h
    exact ⟨rfl, rfl⟩
  | requestSent =>
    cases (ownStep_requestSent hs).symm.trans h
    obtain ⟨-, -, -, -, -, hcfg⟩ := writeStep_effect s
    exact hcfg
  | awaitingResponse =>
    obtain ⟨-, -, -, -, -, hcfg⟩ := readStep_effect ((ownStep_awaitingResponse hs).symm.trans h)
    exact hcfg
  | decoded => exact hdeliver (.inl hs)
  | failed => exact hdeliver (.inr hs)

/-- Settles O51: of the four kinds of operations only `OPEN` writes the configuration, and no own step does. -/
theorem onlyOpenAndResetWriteTheConfiguration : Obligations.OnlyOpenAndResetWriteTheConfiguration := by
  refine ⟨fun i s t hopen h => ?_, fun s t => ownStep_keeps_cfg, fun s bs => ⟨rfl, rfl, rfl, rfl⟩⟩
  obtain hcodec | ⟨cmd, args, hops⟩ | ⟨f, n, rfl⟩ | rfl := instr_kinds i
  · obtain ⟨r, hr⟩ := exec_of_not_waits hcodec
    cases (hr s).symm.trans h
    exact ⟨rfl, rfl⟩
  · obtain ⟨-, -, -, -, hcfg⟩ := accept_effect cmd args s
    exact present_keeps_cfg hcfg ((exec_of_execOperands hops s).symm.trans h)
  · exact absurd rfl (hopen f n)
  · exact present_keeps_cfg (f := closeEffect) ⟨rfl, rfl⟩ h

/-! ### Reset -/

/-- Settles O43: a reset event is `applyReset`, whatever the state. -/
theorem resetEventKeepsTheEnvironment : Obligations.ResetEventKeepsTheEnvironment := by
  intro s kept rest hin
  have hstep : step s = .next (applyReset kept { s with inputs := rest }) := by
    simp only [step, nextEvent_input hin, eventOf]
  exact ⟨_, hstep, rfl, fun hs => by simp [hs], fun hs => by simp [hs]⟩

end Sys2Proof.Machine
end

section
/-! PROOFS. The host port (R104, R108): what a presented request runs, and the one selector it refuses. -/

namespace Sys2Proof.Machine

/-! ### Refusal -/

/-- The port refuses the selector 7 and no other (R104, U9). -/
theorem decodeRequest_error_iff {r : HostRequest} {e : PortError} :
    decodeRequest r = .error e ↔ r.opsel = 7#3 ∧ e = .illegalOpsel := by
  have hall : ∀ o : BitVec 3, o = 0#3 ∨ o = 1#3 ∨ o = 2#3 ∨ o = 3#3 ∨ o = 4#3 ∨ o = 5#3 ∨ o = 6#3 ∨ o = 7#3 := by decide
  obtain h | h | h | h | h | h | h | h := hall r.opsel <;> simp [decodeRequest, h, eq_comm]

theorem exec_ne_refused (i : Instr) (s : State) (x : Refusal) : exec i s ≠ .refused x := by
  obtain ⟨r, hx⟩ | ⟨j, -, hx⟩ | ⟨cmd, args, -, -, hx⟩ | ⟨f, n, -, hx⟩ | ⟨-, hx⟩ := exec_cases i s <;> rw [hx] <;> nofun

theorem decodeStep_ne_refused (p : List Byte) (s : State) (x : Refusal) : decodeStep p s ≠ .refused x := by
  unfold decodeStep
  split
  · split_ifs <;> nofun
  · nofun

theorem checkResponse_ne_refused (r : List Byte) (s : State) (x : Refusal) : checkResponse r s ≠ .refused x := by
  unfold checkResponse
  dsimp only
  split_ifs
  · nofun
  · split
    · nofun
    · split
      · nofun
      · exact decodeStep_ne_refused _ _ x
    · nofun
  · exact decodeStep_ne_refused _ _ x

theorem readStep_ne_refused (s : State) (x : Refusal) : readStep s ≠ .refused x := by
  unfold readStep
  split_ifs
  · nofun
  · split
    · nofun
    · exact checkResponse_ne_refused _ _ x

theorem deliverDecoded_ne_refused (s : State) (x : Refusal) : deliverDecoded s ≠ .refused x := by
  unfold deliverDecoded
  split
  · split
    · nofun
    · split <;> nofun
  · nofun

theorem deliverFailed_ne_refused (s : State) (x : Refusal) : deliverFailed s ≠ .refused x := by
  unfold deliverFailed
  split <;> nofun

theorem ownStep_ne_refused (s : State) (x : Refusal) : ownStep s ≠ .refused x := by
  cases hs : s.fsmState with
  | idle => rw [ownStep_idle hs]; nofun
  | requestSent => rw [ownStep_requestSent hs]; nofun
  | awaitingResponse => rw [ownStep_awaitingResponse hs]; exact readStep_ne_refused s x
  | decoded => rw [ownStep_decoded hs]; exact deliverDecoded_ne_refused s x
  | failed => rw [ownStep_failed hs]; exact deliverFailed_ne_refused s x

theorem step_refused {s : State} {x : Refusal} (h : step s = .refused x) :
    ∃ e, nextEvent s = .refuse e ∧ x = refusalOf e := by
  unfold step at h
  cases hev : nextEvent s with
  | run i u => rw [hev] at h; exact absurd h (exec_ne_refused i u x)
  | refuse e => rw [hev] at h; cases h; exact ⟨e, rfl, rfl⟩
  | own u => rw [hev] at h; exact absurd h (ownStep_ne_refused u x)
  | outside u => rw [hev] at h; cases h

theorem ownMove_ne_refuse (s : State) (e : PortError) : ownMove s ≠ .refuse e := by
  obtain ⟨i, is, -, -, hm⟩ | ⟨-, hm⟩ := ownMove_cases s <;> rw [hm] <;> nofun

theorem presented_ne_refuse (i : Instr) (s : State) (e : PortError) : presented i s ≠ .refuse e := by
  obtain ⟨hp, -⟩ | ⟨hp, -⟩ := presented_cases i s <;> rw [hp] <;> nofun

/-- The port refuses only what the host presents (R104). -/
theorem nextEvent_refuse {s : State} {e : PortError} (h : nextEvent s = .refuse e) :
    ∃ r rest, s.inputs = .op r :: rest ∧ decodeRequest r = .error e := by
  obtain ⟨x, xs, hin, hev⟩ | ⟨-, hev⟩ := nextEvent_cases s <;> rw [hev] at h
  · cases x with
    | op r =>
      cases hd : decodeRequest r with
      | ok i => simp only [eventOf, hd] at h; exact absurd h (presented_ne_refuse i _ e)
      | error e' => cases e; cases e'; exact ⟨r, xs, hin, hd⟩
    | block => exact absurd h (ownMove_ne_refuse _ e)
    | arrive bs => cases h
    | chanClosed => cases h
    | reset kept => cases h
  · exact absurd h (ownMove_ne_refuse _ e)

/-! ### What a step runs -/

theorem nextEvent_op {s : State} {r : HostRequest} {rest : List Input} {i : Instr} (hin : s.inputs = .op r :: rest)
    (hd : decodeRequest r = .ok i) : nextEvent s = presented i { s with inputs := rest } := by
  simp only [nextEvent_input hin, eventOf, hd]

theorem nextEvent_block {s : State} {rest : List Input} (hin : s.inputs = .block :: rest ∨ (s.inputs = [] ∧ rest = [])) :
    nextEvent s = ownMove { s with inputs := rest } := by
  obtain hin | ⟨hin, rfl⟩ := hin
  · simp only [nextEvent_input hin, eventOf]
  · simp only [nextEvent, hin]
    rw [← hin]

/-- Settles O2: what is presented runs or joins the held operations, and the block's own move is the oldest of them or its own step. -/
theorem stepRunsThePresentedOperation : Obligations.StepRunsThePresentedOperation := by
  refine ⟨fun s r rest i hin hd => ?_, fun s rest hin => ?_⟩
  · have hev := nextEvent_op hin hd
    obtain ⟨hp, hrun⟩ | ⟨hp, hidle, hheld, hwait⟩ := presented_cases i { s with inputs := rest }
    · refine ⟨fun _ => by simp only [step, hev, hp], fun hidle hheld hwait => ?_⟩
      exact absurd hrun (by simp [hidle, hheld, hwait])
    · refine ⟨fun hrun => ?_, fun _ _ _ => by simp only [step, hev, hp, hold]⟩
      exact absurd hrun (by simpa [hwait] using ⟨hidle, hheld⟩)
  · have hev := nextEvent_block hin
    obtain ⟨j, js, hidle, hheld, hm⟩ | ⟨hown, hm⟩ := ownMove_cases { s with inputs := rest }
    · refine ⟨fun i is _ hi => ?_, fun hown => ?_⟩
      · obtain ⟨rfl, rfl⟩ := List.cons.inj (hheld.symm.trans hi)
        simp only [step, hev, hm]
      · exact absurd hown (by simp_all)
    · refine ⟨fun i is hidle hi => ?_, fun _ => by simp only [step, hev, hm]⟩
      exact absurd hown (by simp [hidle, hi])

/-- Settles O3: the port turns down exactly the selector 7, and neither an operation nor an own step refuses. -/
theorem onlySelectorSevenIsRefused : Obligations.OnlySelectorSevenIsRefused := by
  refine ⟨fun s r rest hin h7 => ?_, fun s x h => ?_⟩
  · have hd : decodeRequest r = .error .illegalOpsel := decodeRequest_error_iff.mpr ⟨h7, rfl⟩
    simp only [step, nextEvent_input hin, eventOf, hd, refusalOf]
  · obtain ⟨e, hev, rfl⟩ := step_refused h
    obtain ⟨r, rest, hin, hd⟩ := nextEvent_refuse hev
    obtain ⟨h7, rfl⟩ := decodeRequest_error_iff.mp hd
    exact ⟨rfl, r, rest, hin, h7⟩

end Sys2Proof.Machine
end

section
/-! PROOFS. The words of the port and of the text (R104, R107, R108), the command table (R100, R102) and the status codes (R221). -/

namespace Sys2Proof.Machine

/-- Settles O1: each word is decoded by computation. -/
theorem wordsDecodeToTheirOperations : Obligations.WordsDecodeToTheirOperations := by
  refine ⟨rfl, rfl, rfl, rfl, rfl, rfl, rfl, rfl, ?_, ?_⟩ <;> decide

theorem commandForms_canon : ∀ p ∈ commandForms, ∀ args : List Int, (p.2 args).canon = p.2 args := by
  simp [commandForms, Instr.canon]

/-- Settles O4: both are the acceptance of the same id and arguments, held under the same name. -/
theorem execOfAnAssignedIdIsTheCommand : Obligations.ExecOfAnAssignedIdIsTheCommand := by
  intro p hp args s
  have hcanon : (Instr.exec p.1.toNat args).canon = (p.2 args).canon := by
    rw [commandForms_canon p hp, Instr.canon, ofExec_commandForms p hp]
  rw [exec_of_execOperands (i := .exec p.1.toNat args) rfl, exec_of_execOperands (commandForms_execOperands p hp args), hcanon]

theorem cmdEntry?_isSome_iff (c : Byte) : (cmdEntry? c).isSome ↔ c ∈ cmdRows.map (·.id) := by
  simp only [cmdEntry?, List.find?_isSome, beq_iff_eq, List.mem_map]

set_option maxRecDepth 4000 in
/-- Settles O5: the rows as listed; an id is assigned when a row carries it. -/
theorem commandTableHoldsExactlyTheListedIds : Obligations.CommandTableHoldsExactlyTheListedIds := by
  exact ⟨rfl, cmdEntry?_isSome_iff, by decide⟩

/-- R104: every operation is read back from its request, constructor by constructor. -/
theorem decodeRequest_encodeRequest : ∀ i : Instr, decodeRequest (encodeRequest i) = .ok i.canon
  | .readQuat args => Laws.PortForm.readQuat args
  | .readRpy args => Laws.PortForm.readRpy args
  | .readRpyVar args => Laws.PortForm.readRpyVar args
  | .readAcc args => Laws.PortForm.readAcc args
  | .readAccVar args => Laws.PortForm.readAccVar args
  | .readGyro args => Laws.PortForm.readGyro args
  | .readGyroVar args => Laws.PortForm.readGyroVar args
  | .readMag args => Laws.PortForm.readMag args
  | .getFilterGain args => Laws.PortForm.getFilterGain args
  | .setWorldFrameId args => Laws.PortForm.setWorldFrameId args
  | .getWorldFrameId args => Laws.PortForm.getWorldFrameId args
  | .readQuatRpy args => Laws.PortForm.readQuatRpy args
  | .readAccGyro args => Laws.PortForm.readAccGyro args
  | .clearDataBuffer args => Laws.PortForm.clearDataBuffer args
  | .encode cmd payload => Laws.PortForm.encode cmd payload
  | .encodeNp cmd => Laws.PortForm.encodeNp cmd
  | .decodeFloats raw count => Laws.PortForm.decodeFloats raw count
  | .decodeFrame frame => Laws.PortForm.decodeFrame frame
  | .exec cmd args => Laws.PortForm.exec cmd args
  | .openChan respFramed timeout => Laws.PortForm.openChan respFramed timeout
  | .closeChan => Laws.PortForm.closeChan

/-- Settles O6: every request decodes to its operation, so two operations with one request have one canonical form. -/
theorem portRequestDeterminesTheOperation : Obligations.PortRequestDeterminesTheOperation :=
  ⟨decodeRequest_encodeRequest, fun i j h =>
    Except.ok.inj ((decodeRequest_encodeRequest i).symm.trans (h ▸ decodeRequest_encodeRequest j))⟩

/-- Settles O54: the numbers as listed, and one code for every reason of a row. -/
theorem statusCodesAreTheListedNumbers : Obligations.StatusCodesAreTheListedNumbers :=
  ⟨rfl, rfl, fun _ _ _ _ _ => ⟨rfl, rfl, rfl, rfl, rfl, rfl⟩⟩

/-- Settles O55: each line is parsed by computation. -/
theorem hostProgramLinesStandForRequests : Obligations.HostProgramLinesStandForRequests :=
  ⟨by decide, by decide, by decide, by decide, by decide, by decide⟩

end Sys2Proof.Machine
end

section
/-! PROOFS. Operations outside `IDLE` are held (R160 a); `OPEN` and `CLOSE` in full (R167, R168). -/

namespace Sys2Proof.Machine

/-- Settles O22: the three kinds of operations that wait, each under its canonical name. -/
theorem operationsAreHeldOutsideIdle : Obligations.OperationsAreHeldOutsideIdle := by
  intro i s hbusy hkind
  obtain hops | ⟨f, n, rfl⟩ | rfl := hkind
  · obtain ⟨⟨cmd, args⟩, hops⟩ := Option.isSome_iff_exists.mp hops
    rw [exec_of_execOperands hops, present_busy hbusy]
    rfl
  · exact present_busy hbusy
  · exact present_busy hbusy

/-! ### `OPEN` -/

theorem takeOpen_of_cons {s : State} {d : Bool} {ds : List Bool} (h : s.openDraws = d :: ds) :
    takeOpen s = (d, { s with openDraws := ds }) := by
  simp only [takeOpen, h]

theorem takeOpen_of_nil {s : State} (h : s.openDraws = []) :
    takeOpen s = (Config.freeOpen s.freeCtr, { s with freeCtr := s.freeCtr + 1 }) := by
  simp only [takeOpen, h]

theorem openEffect_malformed {f : Int} (hf : f < 0 ∨ 1 < f) (n : Nat) (s : State) :
    openEffect f n s = withResult s (.err .encodingError .malformedArg) := by
  rw [openEffect, if_pos (by omega)]
  rfl

theorem openEffect_opened {f : Int} {n : Nat} {s t : State} (hf : f = 0 ∨ f = 1) (hd : takeOpen s = (true, t)) :
    openEffect f n s = giveHost .done { t with chanOpen := true, cfgRespFramed := decide (f = 1), cfgTTimeout := some n } := by
  rw [openEffect, if_neg (by omega), hd]
  rfl

theorem openEffect_failed {f : Int} {n : Nat} {s t : State} (hf : f = 0 ∨ f = 1) (hd : takeOpen s = (false, t)) :
    openEffect f n s = giveHost (.err .transportError .openFailed) { t with chanOpen := false } := by
  rw [openEffect, if_neg (by omega), hd]
  rfl

/-- Settles O23: the operand check, then the environment's answer, listed or free. -/
theorem openSetsChannelAndConfiguration : Obligations.OpenSetsChannelAndConfiguration := by
  refine ⟨fun f n s hbusy => present_busy hbusy, fun f n s hidle => ?_⟩
  have hexec : exec (.openChan f n) s = .next (openEffect f n s) := present_idle hidle
  rw [hexec]
  refine ⟨fun hf => ?_, fun ds hf hd => ?_, fun ds hf hd => ?_, fun hf hd => ?_⟩
  · rw [openEffect_malformed hf]
  · rw [openEffect_opened hf (takeOpen_of_cons hd)]
    rfl
  · rw [openEffect_failed hf (takeOpen_of_cons hd)]
    rfl
  · cases hfree : Config.freeOpen s.freeCtr with
    | true =>
      left
      rw [openEffect_opened hf ((takeOpen_of_nil hd).trans (by rw [hfree]))]
      rfl
    | false =>
      right
      rw [openEffect_failed hf ((takeOpen_of_nil hd).trans (by rw [hfree]))]
      rfl

/-! ### `CLOSE` -/

/-- Settles O24: the three cases of the channel: held, closed in `IDLE`, and the last pre-send check while it is closed. -/
theorem closeClearsTheChannel : Obligations.CloseClearsTheChannel := by
  refine ⟨fun s hbusy => present_busy hbusy, fun s hidle => present_idle hidle, fun s hidle hclosed p hp args hwf => ?_⟩
  obtain ⟨e, he⟩ := commandForms_assigned p hp
  obtain ⟨hlen, hargs⟩ := commandForms_args_of_wf hp he hwf
  have hcheck : presendCheck p.1.toNat args s.chanOpen = .error .closed := by
    rw [presendCheck_of_words he hlen hargs, hclosed]
    rfl
  exact ⟨exec_of_presendCheck_error (commandForms_execOperands p hp args) hidle hcheck, hclosed⟩

end Sys2Proof.Machine
end

section
/-! PROOFS. `DECODE_FRAME` accepts exactly the frames (R90, R92, R146). -/

namespace Sys2Proof.Machine

/-- Bytes that pass every check are the frame of what they carry. -/
theorem eq_frame_of_splitFrame {f : List Byte} {cmd : Byte} {p : List Byte} (h : splitFrame f = .ok (cmd, p)) :
    p.length ≤ 255 ∧ f = frame cmd p := by
  obtain hshort | hlong := Nat.lt_or_ge f.length 4
  · rw [splitFrame_short hshort] at h
    cases h
  · obtain ⟨start, c, len, q, chk, rfl, -⟩ := exists_framed_parts (r := f) (n := f.length - 4) (by omega)
    have hrest : q ++ [chk] ≠ [] := by simp
    have hbytes : [start, c, len] ++ q ++ [chk] = start :: c :: len :: (q ++ [chk]) := rfl
    rw [hbytes, splitFrame_header hrest] at h
    split_ifs at h with hs h1 h2 h3
    have hlen : q.length = len.toNat := by simp at h1 h2; omega
    have htake : (q ++ [chk]).take len.toNat = q := by rw [← hlen, List.take_left]
    rw [htake] at h h3
    obtain ⟨rfl, rfl⟩ := Prod.mk.inj (Except.ok.inj h)
    obtain rfl := not_not.mp hs
    have hchk : chk = checksum (Config.startByte :: c :: len :: q) := by simpa using h3
    have hbody : Config.startByte :: c :: len :: q = frameBody c q := by simp [frameBody, hlen]
    refine ⟨by omega, ?_⟩
    rw [hbytes, header_eq_frameBody c chk hlen, hchk, hbody]
    rfl

/-- Settles O17: a frame passes every check, and only a frame does. -/
theorem acceptedBytesAreTheFrameOfTheirContent : Obligations.AcceptedBytesAreTheFrameOfTheirContent := by
  intro f cmd payload
  exact ⟨eq_frame_of_splitFrame, fun ⟨hlen, hf⟩ => hf ▸ splitFrame_frame cmd hlen⟩

end Sys2Proof.Machine
end

section
/-! PROOFS. `POST` by class (R203), and `TRUNC` toward zero (R202). -/

namespace Sys2Proof.Machine

@[simp] theorem round6All_length (fresh : Nat) (ws : List Word) : (round6All fresh ws).length = ws.length := by
  induction ws generalizing fresh with
  | nil => rfl
  | cons w ws ih => rw [round6All, List.length_cons, ih, List.length_cons]

/-- The `i`-th value is `ROUND6` of the `i`-th word, with the free value of its own index. -/
theorem round6All_getElem? {fresh i : Nat} {ws : List Word} {w : Word} (h : ws[i]? = some w) :
    (round6All fresh ws)[i]? = some (round6 (fresh + i) w) := by
  induction ws generalizing fresh i with
  | nil => simp at h
  | cons v ws ih =>
    cases i with
    | zero => cases h; rfl
    | succ i =>
      rw [round6All, List.getElem?_cons_succ, ih (by simpa using h), Nat.add_right_comm, Nat.add_assoc]

/-- Settles O36: each class by its equation of `POST`. -/
theorem postFollowsTheClass : Obligations.PostFollowsTheClass := by
  intro fresh ws
  refine ⟨⟨_, rfl, round6All_length fresh ws, fun i w => round6All_getElem?⟩, fun h7 => ?_, fun w hw => ?_, rfl⟩
  · refine ⟨round6All fresh (ws.take 7), by simp only [post, if_pos h7], by simp [h7], fun i w hi hw => ?_⟩
    exact round6All_getElem? (by rwa [List.getElem?_take_of_lt hi])
  · obtain ⟨vs, rfl⟩ := List.head?_eq_some_iff.mp hw
    exact ⟨fun z hz => by simp only [post, hz], fun hz => by simp only [post, hz]⟩

/-! ### Powers of two as fractions -/

theorem pow2Frac_snd_pos (e : Int) : 0 < (pow2Frac e).2 := Nat.two_pow_pos _

/-- `pow2Frac` gives `2^e` as a numerator over a denominator. -/
theorem pow2Frac_div (e : Int) : ((pow2Frac e).1 : ℚ) / (pow2Frac e).2 = 2 ^ e := by
  rw [pow2Frac, Nat.cast_pow, Nat.cast_pow, Nat.cast_ofNat, ← zpow_natCast, ← zpow_natCast, ← zpow_sub₀ two_ne_zero]
  congr 1
  omega

/-- Settles O35: the quotient of naturals is the floor of the magnitude. -/
theorem truncRoundsTowardZero : Obligations.TruncRoundsTowardZero := by
  intro b
  refine ⟨fun h => by simp only [trunc, h], fun neg h => by simp only [trunc, h], fun neg mant exp h => ?_⟩
  have hfloor : ((mant * (pow2Frac exp).1 / (pow2Frac exp).2 : ℕ) : ℤ) = ⌊(mant : ℚ) * 2 ^ exp⌋ := by
    rw [← pow2Frac_div, ← mul_div_assoc, ← Nat.cast_mul, Rat.floor_natCast_div_natCast]
    rfl
  simp only [trunc, h, hfloor]

end Sys2Proof.Machine
end

section
/-! PROOFS. The integer nearest to a rational, ties to even, and the binary exponent of a fraction (R201). -/

namespace Sys2Proof.Machine

/-! ### The nearest integer -/

/-- `m` is an integer nearest to `x`, the even one where `x` is an exact half (R201). -/
def NearestEven (m : ℕ) (x : ℚ) : Prop := |(m : ℚ) - x| ≤ 1 / 2 ∧ (|(m : ℚ) - x| = 1 / 2 → Even m)

/-- A fraction is its quotient and a rest below 1. -/
theorem natCast_div_eq_quotient_add (num : ℕ) {den : ℕ} (hden : 0 < den) :
    (num : ℚ) / den = (num / den : ℕ) + (num % den : ℕ) / den := by
  have hd : (den : ℚ) ≠ 0 := by exact_mod_cast hden.ne'
  have h : (num : ℚ) = den * (num / den : ℕ) + (num % den : ℕ) := by exact_mod_cast (Nat.div_add_mod num den).symm
  field_simp
  exact h

/-- Rounding by the rest: down below one half, up above it, to the even neighbour at it. -/
theorem roundHalfEven_nearestEven (num : ℕ) {den : ℕ} (hden : 0 < den) :
    NearestEven (roundHalfEven num den) ((num : ℚ) / den) := by
  have hd : (0 : ℚ) < den := by exact_mod_cast hden
  have hone : ((num % den : ℕ) : ℚ) / den < 1 := (div_lt_one hd).mpr (by exact_mod_cast Nat.mod_lt num hden)
  have hlow : 2 * (num % den) < den ↔ ((num % den : ℕ) : ℚ) / den < 1 / 2 := by
    rw [div_lt_div_iff₀ hd two_pos, one_mul, mul_comm]
    exact_mod_cast Iff.rfl
  have hhigh : den < 2 * (num % den) ↔ 1 / 2 < ((num % den : ℕ) : ℚ) / den := by
    rw [div_lt_div_iff₀ two_pos hd, one_mul, mul_comm]
    exact_mod_cast Iff.rfl
  rw [natCast_div_eq_quotient_add num hden]
  simp only [roundHalfEven, hlow, hhigh]
  have hrest : (0 : ℚ) ≤ ((num % den : ℕ) : ℚ) / den := by positivity
  set q := num / den
  set f := ((num % den : ℕ) : ℚ) / den
  have hdown : |(q : ℚ) - (q + f)| = f := by rw [sub_add_cancel_left, abs_neg, abs_of_nonneg hrest]
  have hup : |((q + 1 : ℕ) : ℚ) - (q + f)| = 1 - f := by
    rw [Nat.cast_succ, add_sub_add_left_eq_sub, abs_of_nonneg (by linarith)]
  split_ifs with h1 h2 h3
  · exact ⟨by linarith, fun h => by linarith⟩
  · exact ⟨by linarith, fun h => by linarith⟩
  · exact ⟨by linarith, fun _ => Nat.even_iff.mpr h3⟩
  · exact ⟨by linarith, fun _ => Nat.even_add_one.mpr (Nat.even_iff.not.mpr h3)⟩

/-- No integer is nearer, and where another is equally near the nearest one is even. -/
theorem NearestEven.le {m : ℕ} {x : ℚ} (h : NearestEven m x) (n : ℕ) :
    |(m : ℚ) - x| ≤ |(n : ℚ) - x| ∧ (|(m : ℚ) - x| = |(n : ℚ) - x| → m ≠ n → Even m) := by
  obtain ⟨hhalf, heven⟩ := h
  obtain rfl | hne := eq_or_ne m n
  · exact ⟨le_rfl, fun _ hne => absurd rfl hne⟩
  · have hone : (1 : ℚ) ≤ |(m : ℚ) - n| := by
      have hz : (1 : ℤ) ≤ |(m : ℤ) - n| := Int.one_le_abs (sub_ne_zero.mpr (Nat.cast_injective.ne hne))
      exact_mod_cast hz
    have htri : |(m : ℚ) - n| ≤ |(m : ℚ) - x| + |(n : ℚ) - x| := by
      rw [abs_sub_comm (n : ℚ) x]
      exact abs_sub_le _ _ _
    exact ⟨by linarith, fun heq _ => heven (by linarith)⟩

theorem NearestEven.eq_of_nat {m n : ℕ} (h : NearestEven m (n : ℚ)) : m = n := by
  obtain ⟨hle, -⟩ := h.le n
  rw [sub_self, abs_zero] at hle
  exact_mod_cast sub_eq_zero.mp (abs_nonpos_iff.mp hle)

theorem NearestEven.le_of_le {m n : ℕ} {x : ℚ} (h : NearestEven m x) (hn : (n : ℚ) ≤ x) : n ≤ m := by
  have hb := abs_le.mp h.1
  have : (n : ℚ) < m + 1 := by linarith [hb.1]
  exact Nat.lt_succ_iff.mp (by exact_mod_cast this)

theorem NearestEven.ge_of_ge {m n : ℕ} {x : ℚ} (h : NearestEven m x) (hn : x ≤ n) : m ≤ n := by
  have hb := abs_le.mp h.1
  have : (m : ℚ) < n + 1 := by linarith [hb.2]
  exact Nat.lt_succ_iff.mp (by exact_mod_cast this)

/-! ### The binary exponent -/

theorem pow2Frac_mul_le_iff {num den : ℕ} (hden : 0 < den) (e : ℤ) :
    (pow2Frac e).1 * den ≤ num * (pow2Frac e).2 ↔ (2 : ℚ) ^ e ≤ num / den := by
  rw [← pow2Frac_div, div_le_div_iff₀ (by exact_mod_cast pow2Frac_snd_pos e) (by exact_mod_cast hden)]
  exact_mod_cast Iff.rfl

/-- `floorLog2` is the exponent of the power of two at or below a positive fraction. -/
theorem floorLog2_spec {num den : ℕ} (hnum : 0 < num) (hden : 0 < den) :
    (2 : ℚ) ^ floorLog2 num den ≤ num / den ∧ (num : ℚ) / den < 2 ^ (floorLog2 num den + 1) := by
  have hd : (0 : ℚ) < den := by exact_mod_cast hden
  have hnlo : (2 : ℚ) ^ (Nat.log2 num : ℤ) ≤ num := by exact_mod_cast Nat.log2_self_le hnum.ne'
  have hnhi : (num : ℚ) < 2 ^ ((Nat.log2 num : ℤ) + 1) := by exact_mod_cast Nat.lt_log2_self (n := num)
  have hdlo : (2 : ℚ) ^ (Nat.log2 den : ℤ) ≤ den := by exact_mod_cast Nat.log2_self_le hden.ne'
  have hdhi : (den : ℚ) < 2 ^ ((Nat.log2 den : ℤ) + 1) := by exact_mod_cast Nat.lt_log2_self (n := den)
  set e : ℤ := (Nat.log2 num : ℤ) - Nat.log2 den with he
  have hlo : (2 : ℚ) ^ (e - 1) ≤ num / den := by
    rw [le_div_iff₀ hd]
    calc (2 : ℚ) ^ (e - 1) * den ≤ 2 ^ (e - 1) * 2 ^ ((Nat.log2 den : ℤ) + 1) := by gcongr
      _ = 2 ^ (Nat.log2 num : ℤ) := by rw [← zpow_add₀ two_ne_zero]; congr 1; omega
      _ ≤ num := hnlo
  have hhi : (num : ℚ) / den < 2 ^ (e + 1) := by
    rw [div_lt_iff₀ hd]
    calc (num : ℚ) < 2 ^ ((Nat.log2 num : ℤ) + 1) := hnhi
      _ = 2 ^ (e + 1) * 2 ^ (Nat.log2 den : ℤ) := by rw [← zpow_add₀ two_ne_zero]; congr 1; omega
      _ ≤ 2 ^ (e + 1) * den := by gcongr
  simp only [floorLog2, ← he, pow2Frac_mul_le_iff hden]
  split_ifs with h
  · exact ⟨h, hhi⟩
  · exact ⟨hlo, by rw [sub_add_cancel]; exact not_le.mp h⟩

end Sys2Proof.Machine
end

section
/-! PROOFS. The layout of binary64 (log 25): the fields of a packed value and the magnitudes they stand for. -/

namespace Sys2Proof.Machine

/-! ### Fields -/

theorem pack64_toNat (neg : Bool) {mag : ℕ} (h : mag < 2 ^ 63) : (pack64 neg mag).toNat = neg.toNat * 2 ^ 63 + mag := by
  rw [pack64, BitVec.toNat_append, BitVec.toNat_ofNat, Nat.mod_eq_of_lt h, ← Nat.shiftLeft_add_eq_or_of_lt h,
    Nat.shiftLeft_eq, BitVec.toNat_ofBool]

/-- The value of a packed encoding, by its exponent and fraction fields. -/
theorem f64Val_pack64 (neg : Bool) {mag : ℕ} (h : mag < 2 ^ 63) : f64Val (pack64 neg mag) =
    if mag / 2 ^ 52 = 2047 then (if mag % 2 ^ 52 = 0 then .inf neg else .nan)
    else if mag / 2 ^ 52 = 0 then .fin neg (mag % 2 ^ 52) (-1074)
    else .fin neg (2 ^ 52 + mag % 2 ^ 52) ((mag / 2 ^ 52 : ℕ) - 1075) := by
  have hsign : (pack64 neg mag).getLsbD 63 = neg := by
    rw [pack64, BitVec.getLsbD_append]
    simp
  have hexp : ((pack64 neg mag).extractLsb' 52 11).toNat = mag / 2 ^ 52 := by
    rw [BitVec.extractLsb'_toNat, pack64_toNat neg h, Nat.shiftRight_eq_div_pow]
    omega
  have hfrac : ((pack64 neg mag).extractLsb' 0 52).toNat = mag % 2 ^ 52 := by
    rw [BitVec.extractLsb'_toNat, pack64_toNat neg h, Nat.shiftRight_zero]
    omega
  simp only [f64Val, hsign, hexp, hfrac]

theorem pack64_getLsbD_zero (neg : Bool) (mag : ℕ) : (pack64 neg mag).getLsbD 0 = decide (mag % 2 = 1) := by
  rw [pack64, BitVec.getLsbD_append, if_pos (by omega), BitVec.getLsbD_ofNat, Nat.testBit_zero]
  simp

theorem f64Val_freeNan (fresh : ℕ) : f64Val (freeNan fresh) = .nan := by
  have hf := (Config.freeNanFraction fresh).isLt
  have hpos : (if Config.freeNanFraction fresh = 0#52 then 1 else (Config.freeNanFraction fresh).toNat) ∈ Set.Ioo 0 (2 ^ 52) := by
    split_ifs with h
    · norm_num
    · exact ⟨Nat.pos_of_ne_zero fun h0 => h (BitVec.eq_of_toNat_eq h0), hf⟩
  obtain ⟨hlo, hhi⟩ := hpos
  unfold freeNan
  dsimp only
  rw [f64Val_pack64 _ (by omega), if_pos (by omega), if_neg (by omega)]

theorem f64Val_infinity (neg : Bool) : f64Val (pack64 neg (0x7FF * 2 ^ 52)) = .inf neg := by
  rw [f64Val_pack64 neg (by norm_num)]
  rfl

theorem f64Val_zero (neg : Bool) : f64Val (pack64 neg 0) = .fin neg 0 (-1074) := by
  rw [f64Val_pack64 neg (by norm_num)]
  rfl

/-- The encoding `n · 2^52 + m` of `nearestBits`, for a significand `m` of 53 bits or one that a rounding carried to `2^53`, stands for
`m · 2^(n - 1074)`. -/
theorem f64Val_normal (neg : Bool) {n m : ℕ} (hn : n < 2045) (hlo : 2 ^ 52 ≤ m) (hhi : m ≤ 2 ^ 53) :
    ∃ (mant : ℕ) (exp : ℤ), f64Val (pack64 neg (n * 2 ^ 52 + m)) = .fin neg mant exp ∧
      (mant : ℚ) * 2 ^ exp = m * 2 ^ ((n : ℤ) - 1074) := by
  rw [f64Val_pack64 neg (by omega)]
  obtain hlt | rfl := hhi.lt_or_eq
  · have hq : (n * 2 ^ 52 + m) / 2 ^ 52 = n + 1 := by omega
    have hr : 2 ^ 52 + (n * 2 ^ 52 + m) % 2 ^ 52 = m := by omega
    rw [if_neg (by omega), if_neg (by omega), hq, hr]
    refine ⟨m, _, rfl, ?_⟩
    congr 2
    push_cast
    ring
  · have hq : (n * 2 ^ 52 + 2 ^ 53) / 2 ^ 52 = n + 2 := by omega
    have hr : (n * 2 ^ 52 + 2 ^ 53) % 2 ^ 52 = 0 := by omega
    rw [if_neg (by omega), if_neg (by omega), hq, hr]
    refine ⟨2 ^ 52, _, rfl, ?_⟩
    have hexp : ((n + 2 : ℕ) : ℤ) - 1075 = n - 1074 + 1 := by push_cast; ring
    rw [Nat.add_zero, hexp, zpow_add_one₀ two_ne_zero]
    push_cast
    ring

/-- Every finite binary64 magnitude has a significand of at most 53 bits. -/
theorem f64Val_mant_lt {b : Bits64} {neg : Bool} {mant : ℕ} {exp : ℤ} (h : f64Val b = .fin neg mant exp) : mant < 2 ^ 53 := by
  have hf := (b.extractLsb' 0 52).isLt
  unfold f64Val at h
  dsimp only at h
  split_ifs at h
  · cases h; omega
  · cases h; omega

end Sys2Proof.Machine
end

section
/-! PROOFS. `ROUND6` is the binary64 value nearest to the rounded count of millionths (R201). -/

namespace Sys2Proof.Machine

/-! ### Both roundings -/

theorem f32_fin_range {w : Word} {neg : Bool} {mant : ℕ} {exp : ℤ} (h : f32 w = .fin neg mant exp) :
    mant < 2 ^ 24 ∧ exp ≤ 104 := by
  have he := (w.extractLsb' 23 8).isLt
  have hf := (w.extractLsb' 0 23).isLt
  unfold f32 at h
  dsimp only at h
  split_ifs at h
  · cases h; omega
  · cases h; omega

/-- The first rounding of R201: to the integer number of millionths. -/
theorem microUnits_nearestEven (mant : ℕ) (exp : ℤ) : NearestEven (microUnits mant exp) (mant * 2 ^ exp * 10 ^ 6) := by
  have h := roundHalfEven_nearestEven (mant * 10 ^ 6 * (pow2Frac exp).1) (pow2Frac_snd_pos exp)
  have hx : ((mant * 10 ^ 6 * (pow2Frac exp).1 : ℕ) : ℚ) / (pow2Frac exp).2 = mant * 2 ^ exp * 10 ^ 6 := by
    rw [← pow2Frac_div exp]
    push_cast
    ring
  rwa [hx] at h

theorem microUnits_le {w : Word} {neg : Bool} {mant : ℕ} {exp : ℤ} (h : f32 w = .fin neg mant exp) :
    microUnits mant exp ≤ 2 ^ 128 * 10 ^ 6 := by
  obtain ⟨hmant, hexp⟩ := f32_fin_range h
  refine (microUnits_nearestEven mant exp).ge_of_ge ?_
  have hm : (mant : ℚ) ≤ 2 ^ 24 := by exact_mod_cast hmant.le
  have he : (2 : ℚ) ^ exp ≤ 2 ^ (104 : ℤ) := zpow_le_zpow_right₀ one_le_two hexp
  calc (mant : ℚ) * 2 ^ exp * 10 ^ 6 ≤ 2 ^ 24 * 2 ^ (104 : ℤ) * 10 ^ 6 := by gcongr
    _ = ((2 ^ 128 * 10 ^ 6 : ℕ) : ℚ) := by norm_num

/-- The second rounding of R201, in the range of the normal numbers: a significand nearest to `x / 2^u`, at its place in the encoding. -/
theorem nearest64_of_normal {num den : ℕ} (hnum : 0 < num) (hden : 0 < den) (hlo : -1022 ≤ floorLog2 num den)
    (hhi : floorLog2 num den < 1022) :
    ∃ n m : ℕ, n < 2045 ∧ 2 ^ 52 ≤ m ∧ m ≤ 2 ^ 53 ∧ nearest64 num den = n * 2 ^ 52 + m ∧
      2 ^ 52 ≤ (num : ℚ) / den / 2 ^ ((n : ℤ) - 1074) ∧ NearestEven m ((num : ℚ) / den / 2 ^ ((n : ℤ) - 1074)) := by
  obtain ⟨hx1, hx2⟩ := floorLog2_spec hnum hden
  set e := floorLog2 num den with he
  set u : ℤ := e - 52 with hu
  have hun : (((u + 1074).toNat : ℕ) : ℤ) - 1074 = u := by omega
  have hpos : (0 : ℚ) < 2 ^ u := zpow_pos two_pos u
  have hq1 : (2 : ℚ) ^ 52 ≤ (num : ℚ) / den / 2 ^ u := by
    have hexp : ((52 : ℕ) : ℤ) + u = e := by omega
    rwa [le_div_iff₀ hpos, ← zpow_natCast, ← zpow_add₀ two_ne_zero, hexp]
  have hq2 : (num : ℚ) / den / 2 ^ u ≤ 2 ^ 53 := by
    have hexp : ((53 : ℕ) : ℤ) + u = e + 1 := by omega
    rw [div_le_iff₀ hpos, ← zpow_natCast, ← zpow_add₀ two_ne_zero, hexp]
    exact hx2.le
  have hm := roundHalfEven_nearestEven (num * (pow2Frac u).2) (den := den * (pow2Frac u).1)
    (Nat.mul_pos hden (Nat.two_pow_pos _))
  have hx : ((num * (pow2Frac u).2 : ℕ) : ℚ) / (den * (pow2Frac u).1 : ℕ) = num / den / 2 ^ u := by
    rw [← pow2Frac_div u, Nat.cast_mul, Nat.cast_mul, div_div_div_eq]
  rw [hx] at hm
  have hm1 := hm.le_of_le (n := 2 ^ 52) (by exact_mod_cast hq1)
  have hm2 := hm.ge_of_ge (n := 2 ^ 53) (by exact_mod_cast hq2)
  refine ⟨(u + 1074).toNat, _, by omega, hm1, hm2, ?_, by rw [hun]; exact hq1, by rw [hun]; exact hm⟩
  have hmax : max (floorLog2 num den - ((53 : ℕ) - 1 : ℤ)) (-1074) = u := by rw [← he]; omega
  simp only [nearest64, nearestBits, if_neg hnum.ne', hmax, sub_neg_eq_add]
  exact Nat.min_eq_left (by omega)

/-! ### Nearness -/

/-- `r` has the sign `neg` and a finite magnitude such that no finite binary64 magnitude is nearer to `x`, the last bit 0 where another
is equally near (R201). -/
def IsNearest64 (r : Bits64) (neg : Bool) (x : ℚ) : Prop :=
  ∃ (m : ℕ) (e : ℤ), f64Val r = .fin neg m e ∧
    ∀ (b : Bits64) (mb : ℕ) (xb : ℤ), f64Val b = .fin false mb xb →
      |(m : ℚ) * 2 ^ e - x| ≤ |(mb : ℚ) * 2 ^ xb - x| ∧
      (|(m : ℚ) * 2 ^ e - x| = |(mb : ℚ) * 2 ^ xb - x| → (m : ℚ) * 2 ^ e ≠ (mb : ℚ) * 2 ^ xb → r.getLsbD 0 = false)

/-- A rounded significand at the scale `2^u` is nearest among all values with significands of 53 bits: those at or above the scale are
its integer multiples, those below it are under `2^52` units and so farther away than `2^52` units is. -/
theorem NearestEven.scaled {m : ℕ} {u : ℤ} {x : ℚ} (hm : NearestEven m (x / 2 ^ u)) (hx : 2 ^ 52 ≤ x / 2 ^ u) {mb : ℕ}
    (hmb : mb < 2 ^ 53) (xb : ℤ) :
    |(m : ℚ) * 2 ^ u - x| ≤ |(mb : ℚ) * 2 ^ xb - x| ∧
      (|(m : ℚ) * 2 ^ u - x| = |(mb : ℚ) * 2 ^ xb - x| → (m : ℚ) * 2 ^ u ≠ (mb : ℚ) * 2 ^ xb → Even m) := by
  have hpos : (0 : ℚ) < 2 ^ u := zpow_pos two_pos u
  have hscale (y : ℚ) : |y * 2 ^ u - x| = |y - x / 2 ^ u| * 2 ^ u := by
    rw [← abs_of_pos hpos, ← abs_mul, abs_of_pos hpos, sub_mul, div_mul_cancel₀ x hpos.ne']
  have hy : (mb : ℚ) * 2 ^ xb = mb * 2 ^ (xb - u) * 2 ^ u := by
    rw [mul_assoc, ← zpow_add₀ two_ne_zero, sub_add_cancel]
  rw [hy, hscale, hscale, mul_le_mul_iff_left₀ hpos, mul_left_inj' hpos.ne', Ne, mul_left_inj' hpos.ne']
  obtain hge | hlt := le_or_gt u xb
  · obtain ⟨j, hj⟩ := Int.eq_ofNat_of_zero_le (sub_nonneg.mpr hge)
    have hn : (mb : ℚ) * 2 ^ (xb - u) = (mb * 2 ^ j : ℕ) := by rw [hj, zpow_natCast]; push_cast; rfl
    rw [hn]
    obtain ⟨hle, heven⟩ := hm.le (mb * 2 ^ j)
    exact ⟨hle, fun heq hne => heven heq fun h => hne (by rw [h])⟩
  · have hsmall : (mb : ℚ) * 2 ^ (xb - u) < 2 ^ 52 := by
      have hm53 : (mb : ℚ) < 2 ^ 53 := by exact_mod_cast hmb
      calc (mb : ℚ) * 2 ^ (xb - u) ≤ mb * 2 ^ (-1 : ℤ) := by gcongr <;> [norm_num; omega]
        _ < 2 ^ 53 * 2 ^ (-1 : ℤ) := by gcongr
        _ = 2 ^ 52 := by norm_num
    obtain ⟨hle, -⟩ := hm.le (2 ^ 52)
    have hfar : |((2 ^ 52 : ℕ) : ℚ) - x / 2 ^ u| < |(mb : ℚ) * 2 ^ (xb - u) - x / 2 ^ u| := by
      push_cast
      rw [abs_of_nonpos (by linarith), abs_of_neg (by linarith)]
      linarith
    exact ⟨(hle.trans_lt hfar).le, fun heq => absurd heq (hle.trans_lt hfar).ne⟩

theorem isNearest64_zero (neg : Bool) : IsNearest64 (pack64 neg 0) neg 0 := by
  refine ⟨0, -1074, f64Val_zero neg, fun b mb xb _ => ?_⟩
  rw [Nat.cast_zero, zero_mul, sub_zero, sub_zero, abs_zero]
  exact ⟨abs_nonneg _, fun h hne => absurd (abs_eq_zero.mp h.symm).symm hne⟩

/-- Millionths in the range of the finite binary32 values have a binary exponent far inside the normal binary64 numbers. -/
theorem floorLog2_micro_range {k : ℕ} (hpos : 0 < k) (hk : k ≤ 2 ^ 128 * 10 ^ 6) :
    -20 ≤ floorLog2 k (10 ^ 6) ∧ floorLog2 k (10 ^ 6) < 129 := by
  obtain ⟨hlo, hhi⟩ := floorLog2_spec hpos (by norm_num : 0 < 10 ^ 6)
  have h1 : (2 : ℚ) ^ (-20 : ℤ) < 2 ^ (floorLog2 k (10 ^ 6) + 1) := by
    refine lt_of_lt_of_le ?_ (hhi.le.trans' ((div_le_div_iff_of_pos_right (by norm_num)).mpr (Nat.one_le_cast.mpr hpos)))
    norm_num
  have h2 : (2 : ℚ) ^ floorLog2 k (10 ^ 6) < 2 ^ (129 : ℤ) := by
    have hkq : (k : ℚ) ≤ 2 ^ 128 * 10 ^ 6 := by exact_mod_cast hk
    refine hlo.trans_lt ?_
    rw [div_lt_iff₀ (by norm_num)]
    refine hkq.trans_lt ?_
    norm_num
  have h1 := (zpow_lt_zpow_iff_right₀ one_lt_two).mp h1
  have h2 := (zpow_lt_zpow_iff_right₀ one_lt_two).mp h2
  omega

theorem isNearest64_micro (neg : Bool) {k : ℕ} (hk : k ≤ 2 ^ 128 * 10 ^ 6) :
    IsNearest64 (pack64 neg (nearest64 k (10 ^ 6))) neg (k / 10 ^ 6) := by
  obtain rfl | hpos := Nat.eq_zero_or_pos k
  · rw [Nat.cast_zero, zero_div]
    exact isNearest64_zero neg
  · obtain ⟨hlo, hhi⟩ := floorLog2_micro_range hpos hk
    obtain ⟨n, m, hn, hm1, hm2, hbits, hx, hm⟩ := nearest64_of_normal hpos (by norm_num : 0 < 10 ^ 6) (by omega) (by omega)
    obtain ⟨mant, e, hval, hmag⟩ := f64Val_normal neg hn hm1 hm2
    rw [hbits]
    refine ⟨mant, e, hval, fun b mb xb hb => ?_⟩
    obtain ⟨hle, heven⟩ := hm.scaled hx (f64Val_mant_lt hb) xb
    rw [hmag]
    push_cast at hle heven
    refine ⟨hle, fun heq hne => ?_⟩
    obtain ⟨j, hj⟩ := heven heq hne
    rw [pack64_getLsbD_zero, decide_eq_false_iff_not]
    omega

/-- R201 for a finite word, by the two roundings. -/
theorem round6_isNearest64 {w : Word} {neg : Bool} {mant : ℕ} {exp : ℤ} (fresh : ℕ) (h : f32 w = .fin neg mant exp) :
    IsNearest64 (round6 fresh w) neg (microUnits mant exp / 10 ^ 6) := by
  rw [round6_of_fin fresh h rfl]
  exact isNearest64_micro neg (microUnits_le h)

/-- Settles O33: a NaN and an infinity by their layout, a finite word by its two roundings. -/
theorem round6IsTheNearestBinary64 : Obligations.Round6IsTheNearestBinary64 := by
  intro fresh w
  refine ⟨fun h => ?_, fun neg h => ?_, fun neg mant exp h => ?_⟩
  · simp only [round6, h, f64Val_freeNan]
  · simp only [round6, h, f64Val_infinity]
  · obtain ⟨hhalf, heven⟩ := microUnits_nearestEven mant exp
    exact ⟨microUnits mant exp, hhalf, heven, round6_isNearest64 fresh h⟩

end Sys2Proof.Machine
end

section
/-! PROOFS. The laws of `ROUND6` (R206): symmetry, the sign of zero, and large values kept. -/

namespace Sys2Proof.Machine

/-! ### Symmetry -/

/-- A float value with its sign flipped. -/
def FloatVal.neg : FloatVal → FloatVal
  | .nan => .nan
  | .inf neg => .inf (!neg)
  | .fin neg mant exp => .fin (!neg) mant exp

theorem f32_flipSign (w : Word) : f32 (w ^^^ 0x80000000#32) = (f32 w).neg := by
  have hsign : (w ^^^ 0x80000000#32).getLsbD 31 = !w.getLsbD 31 := by
    rw [BitVec.getLsbD_xor, show (0x80000000#32).getLsbD 31 = true from rfl, Bool.xor_true]
  have hexp : (w ^^^ 0x80000000#32).extractLsb' 23 8 = w.extractLsb' 23 8 := by
    rw [BitVec.extractLsb'_xor, show (0x80000000#32).extractLsb' 23 8 = 0#8 from rfl, BitVec.xor_zero]
  have hfrac : (w ^^^ 0x80000000#32).extractLsb' 0 23 = w.extractLsb' 0 23 := by
    rw [BitVec.extractLsb'_xor, show (0x80000000#32).extractLsb' 0 23 = 0#23 from rfl, BitVec.xor_zero]
  simp only [f32, hsign, hexp, hfrac]
  split_ifs <;> rfl

theorem pack64_flipSign (neg : Bool) (mag : ℕ) : pack64 (!neg) mag = pack64 neg mag ^^^ 0x8000000000000000#64 := by
  have hmask : 0x8000000000000000#64 = BitVec.ofBool true ++ 0#63 := rfl
  rw [pack64, pack64, hmask, BitVec.xor_append, BitVec.xor_zero]
  cases neg <;> rfl

theorem round6_flipSign (fresh : ℕ) {w : Word} (h : f32 w ≠ .nan) :
    round6 fresh (w ^^^ 0x80000000#32) = round6 fresh w ^^^ 0x8000000000000000#64 := by
  cases hw : f32 w with
  | nan => exact absurd hw h
  | inf neg => simp only [round6, f32_flipSign, hw, FloatVal.neg, pack64_flipSign]
  | fin neg mant exp => simp only [round6, f32_flipSign, hw, FloatVal.neg, pack64_flipSign]

/-! ### Large values -/

theorem f32_of_normal {w : Word} (hlo : 0 < (w.extractLsb' 23 8).toNat) (hhi : (w.extractLsb' 23 8).toNat < 255) :
    f32 w = .fin (w.getLsbD 31) (2 ^ 23 + (w.extractLsb' 0 23).toNat) ((w.extractLsb' 23 8).toNat - 150) := by
  simp only [f32, if_neg hhi.ne, if_neg hlo.ne']

/-- A binary32 significand at an exponent of binary32's range is a binary64 value: shifted up by the 29 further bits. -/
theorem exists_f64Val_of_normal {mant : ℕ} {exp : ℤ} (hlo : 2 ^ 23 ≤ mant) (hhi : mant < 2 ^ 24) (he : 0 ≤ exp)
    (he' : exp ≤ 104) : ∃ (b : Bits64) (mb : ℕ) (xb : ℤ), f64Val b = .fin false mb xb ∧ (mb : ℚ) * 2 ^ xb = mant * 2 ^ exp := by
  obtain ⟨mb, xb, hval, hmag⟩ := f64Val_normal false (n := (exp + 1045).toNat) (m := mant * 2 ^ 29) (by omega) (by omega) (by omega)
  refine ⟨_, mb, xb, hval, ?_⟩
  have hexp : (((exp + 1045).toNat : ℕ) : ℤ) - 1074 = exp - (29 : ℕ) := by omega
  rw [hmag, hexp, zpow_sub₀ two_ne_zero, zpow_natCast]
  push_cast
  field_simp
  norm_num

/-- An integer has an exact count of millionths, and a binary64 value is nearest to itself. -/
theorem round6_keeps_large {w : Word} (fresh : ℕ) (hlo : 150 ≤ (w.extractLsb' 23 8).toNat)
    (hhi : (w.extractLsb' 23 8).toNat < 255) : (f64Val (round6 fresh w)).toRat? = (f32 w).toRat? := by
  have hw := f32_of_normal (w := w) (by omega) hhi
  have hf := (w.extractLsb' 0 23).isLt
  set mant := 2 ^ 23 + (w.extractLsb' 0 23).toNat
  set exp : ℤ := ((w.extractLsb' 23 8).toNat : ℤ) - 150 with hexp
  obtain ⟨j, hj⟩ := Int.eq_ofNat_of_zero_le (show 0 ≤ exp by omega)
  have hk : microUnits mant exp = mant * 2 ^ j * 10 ^ 6 := by
    have hnear := microUnits_nearestEven mant exp
    have hnat : (mant : ℚ) * 2 ^ exp * 10 ^ 6 = (mant * 2 ^ j * 10 ^ 6 : ℕ) := by rw [hj, zpow_natCast]; push_cast; rfl
    rw [hnat] at hnear
    exact hnear.eq_of_nat
  have hx : ((microUnits mant exp : ℕ) : ℚ) / 10 ^ 6 = mant * 2 ^ exp := by
    rw [hk, hj, zpow_natCast]
    push_cast
    ring
  obtain ⟨b, mb, xb, hb, hmag⟩ := exists_f64Val_of_normal (mant := mant) (exp := exp) (by omega) (by omega) (by omega) (by omega)
  obtain ⟨m, e, hval, hnearest⟩ := round6_isNearest64 fresh hw
  obtain ⟨hle, -⟩ := hnearest b mb xb hb
  rw [hx, hmag, sub_self, abs_zero] at hle
  have heq : (m : ℚ) * 2 ^ e = mant * 2 ^ exp := sub_eq_zero.mp (abs_nonpos_iff.mp hle)
  simp only [hval, hw, FloatVal.toRat?, mul_assoc, heq]

/-- Settles O34: the sign passes through both roundings, zero has no millionths, and a large value is an integer and a binary64 value. -/
theorem round6IsSymmetricAndKeepsLargeValues : Obligations.Round6IsSymmetricAndKeepsLargeValues := by
  refine ⟨fun fresh w => round6_flipSign fresh, fun fresh => ⟨?_, ?_⟩, fun fresh w => round6_keeps_large fresh⟩
  · exact round6_of_fin fresh (show f32 0x00000000#32 = .fin false 0 (-149) by decide) (show microUnits 0 (-149) = 0 by decide)
  · exact round6_of_fin fresh (show f32 0x80000000#32 = .fin true 0 (-149) by decide) (show microUnits 0 (-149) = 0 by decide)

end Sys2Proof.Machine
end
